-- ==== Sys2Proof/Word.lean ====
section
/-! DEFINITION. The bit-vector widths of the FCB: bytes, 16-bit CRC and count values, 17-bit lengths, 24-bit command
words, the read port's 4-bit addresses and 32-bit data (R6, R7: bit 0 is the least significant bit, every value is
unsigned). -/

namespace Sys2Proof

/-- A byte: a data byte, a function code, a header byte (R7). -/
abbrev Byte := BitVec 8

/-- A 16-bit value: a CRC or a two-byte count (R6). -/
abbrev Half := BitVec 16

/-- A frame length; 17 bits hold every length (R6, R23). -/
abbrev Length := BitVec 17

/-- A command word as the host writes it to the command port (R49). -/
abbrev CmdWord := BitVec 24

/-- A read-port address (R35). -/
abbrev RegAddr := BitVec 4

/-- A read-port datum (R35). -/
abbrev RegData := BitVec 32

end Sys2Proof
end

