-- ==== Sys2Proof/Config.lean ====
section
/-! DEFINITION. The parameters of the FCB that are not widths (R6). Each has one value for this hardware; the spec leaves
none open, so the model has no free value. "CRC final XOR: none" and the shift direction are in `crcStep8`'s shape (R59). -/

namespace Sys2Proof.Config

/-- The reflected CRC polynomial (R6, R59). -/
def crcPoly : Half := 0xA001#16

/-- The CRC seed, also the reset value of `crc` (R6, R30, R61). -/
def crcSeed : Half := 0xFFFF#16

/-- The shift-and-XOR steps per byte (R6, R59). -/
def crcStepsPerByte : Nat := 8

end Sys2Proof.Config
end

