-- ==== Sys2Proof/Syntax.lean ====
section
/-! DEFINITION. The instruction syntax: one constructor per row of spec/opcode_table.json, the nine commands (R51) and the
31 decode entries of the function-code ROM (R56). -/

namespace Sys2Proof

/-- The rows of the opcode table. The nine rows of format CMD are the commands a host can write (R51). The rows of
format FCROM are the entries of the function-code ROM (R56), which `CLS_START` looks up; a row that matches several
codes carries the code it was matched by. No command word decodes to an FCROM row (notes/assumptions/4.md). -/
inductive Instr where
  /-- `NOP` (R78). -/
  | nop
  /-- `CRC_INIT` (R61). -/
  | crcInit
  /-- `CRC_BYTE b` (R62). -/
  | crcByte (b : Byte)
  /-- `CRC_CHECK lo, hi`: the received pair, crc-lo first as on the wire (R50, R63). -/
  | crcCheck (lo hi : Byte)
  /-- `CLS_START fc` (R70). -/
  | clsStart (fc : Byte)
  /-- `CLS_HDR b` (R71). -/
  | clsHdr (b : Byte)
  /-- `CLS_CLEAR` (R72). -/
  | clsClear
  /-- `ERR_CLEAR` (R79). -/
  | errClear
  /-- `SOFT_RESET` (R80). -/
  | softReset
  /-- ROM entry 0x00: UNKNOWN (R56). -/
  | fc00
  /-- ROM entry 0x01: COUNT8 (R56). -/
  | fc01
  /-- ROM entry 0x02: COUNT8 (R56). -/
  | fc02
  /-- ROM entry 0x03: COUNT8 (R56). -/
  | fc03
  /-- ROM entry 0x04: COUNT8 (R56). -/
  | fc04
  /-- ROM entry 0x05: FIXED8 (R56). -/
  | fc05
  /-- ROM entry 0x06: FIXED8 (R56). -/
  | fc06
  /-- ROM entry 0x07: FIXED3 (R56). -/
  | fc07
  /-- ROM entry 0x08: FIXED3 (R56). -/
  | fc08
  /-- ROM entry 0x09: UNKNOWN (R56). -/
  | fc09
  /-- ROM entry 0x0A: UNKNOWN (R56). -/
  | fc0A
  /-- ROM entry 0x0B: FIXED8 (R56). -/
  | fc0B
  /-- ROM entry 0x0C: COUNT8 (R56). -/
  | fc0C
  /-- ROM entry 0x0D: UNKNOWN (R56). -/
  | fc0D
  /-- ROM entry 0x0E: UNKNOWN (R56). -/
  | fc0E
  /-- ROM entry 0x0F: FIXED8 (R56). -/
  | fc0F
  /-- ROM entry 0x10: FIXED8 (R56). -/
  | fc10
  /-- ROM entry 0x11: COUNT8 (R56). -/
  | fc11
  /-- ROM entry 0x12: UNKNOWN (R56). -/
  | fc12
  /-- ROM entry 0x13: UNKNOWN (R56). -/
  | fc13
  /-- ROM entry 0x14: COUNT8 (R56). -/
  | fc14
  /-- ROM entry 0x15: COUNT8 (R56). -/
  | fc15
  /-- ROM entry 0x16: FIXED8 (R56). -/
  | fc16
  /-- ROM entry 0x17: COUNT8 (R56). -/
  | fc17
  /-- ROM entry 0x18: COUNT16 (R56). -/
  | fc18
  /-- ROM entry 0x19: UNKNOWN (R56). -/
  | fc19
  /-- ROM entry 0x1A to 0x1B: UNKNOWN (R56). -/
  | fc1A1B (fc : Byte)
  /-- ROM entry 0x1C to 0x1F: UNKNOWN (R56). -/
  | fc1C1F (fc : Byte)
  /-- ROM entry 0x20 to 0x3F: UNKNOWN (R56). -/
  | fc203F (fc : Byte)
  /-- ROM entry 0x40 to 0x7F: UNKNOWN (R56). -/
  | fc407F (fc : Byte)
  /-- ROM entry 0x80 to 0xFF: EXCEPTION (R56). -/
  | fc80FF (fc : Byte)
  deriving DecidableEq, Repr

end Sys2Proof
end

