-- ==== Sys2Proof/WellFormed.lean ====
section
/-! DEFINITION. Well-formed instructions. Command operands are bytes, all of them legal (R50); a ROM entry that matches
several function codes must carry one its mask and match admit (R56). -/

namespace Sys2Proof

/-- The operand of an instruction is one its row of the opcode table admits. -/
def Instr.wellFormed : Instr → Bool
  | .nop => true
  | .crcInit => true
  | .crcByte _ => true
  | .crcCheck _ _ => true
  | .clsStart _ => true
  | .clsHdr _ => true
  | .clsClear => true
  | .errClear => true
  | .softReset => true
  | .fc00 => true
  | .fc01 => true
  | .fc02 => true
  | .fc03 => true
  | .fc04 => true
  | .fc05 => true
  | .fc06 => true
  | .fc07 => true
  | .fc08 => true
  | .fc09 => true
  | .fc0A => true
  | .fc0B => true
  | .fc0C => true
  | .fc0D => true
  | .fc0E => true
  | .fc0F => true
  | .fc10 => true
  | .fc11 => true
  | .fc12 => true
  | .fc13 => true
  | .fc14 => true
  | .fc15 => true
  | .fc16 => true
  | .fc17 => true
  | .fc18 => true
  | .fc19 => true
  | .fc1A1B fc => fc &&& 0xFE#8 == 0x1A#8
  | .fc1C1F fc => fc &&& 0xFC#8 == 0x1C#8
  | .fc203F fc => fc &&& 0xE0#8 == 0x20#8
  | .fc407F fc => fc &&& 0xC0#8 == 0x40#8
  | .fc80FF fc => fc &&& 0x80#8 == 0x80#8

end Sys2Proof
end

