-- ==== Sys2Proof/Decode.lean ====
section
/-! DEFINITION. Decoding and encoding (R49 to R54, R56). A command word is matched against the nine mask-and-match rows of
R51; a word that matches none is illegal (R53). A function code is matched against the 31 rows of the ROM (R56). The
encoder is written from the same tables. -/

namespace Sys2Proof

/-- `cmd[23:16]`, the opcode (R49). -/
def CmdWord.op (w : CmdWord) : Byte := w.extractLsb' 16 8

/-- `cmd[15:8]`, the high operand byte (R49). -/
def CmdWord.hi (w : CmdWord) : Byte := w.extractLsb' 8 8

/-- `cmd[7:0]`, the low operand byte (R49, R50). -/
def CmdWord.lo (w : CmdWord) : Byte := w.extractLsb' 0 8

/-- `cmd[15:0]`, the whole operand (R49). -/
def CmdWord.imm16 (w : CmdWord) : Half := w.extractLsb' 0 16

/-- The command word `{op, hi, b}` (R49). -/
def CmdWord.pack (op hi b : Byte) : CmdWord := op ++ hi ++ b

/-- One row of R51: a word `w` encodes the command when `w & mask = match`. -/
structure CmdRow where
  mask : CmdWord
  pattern : CmdWord
  build : CmdWord → Instr

/-- The nine rows of R51, mask and match as the table gives them. -/
def cmdRows : List CmdRow :=
  [⟨0xFFFFFF#24, 0x000000#24, fun _ => .nop⟩,
   ⟨0xFFFFFF#24, 0x010000#24, fun _ => .crcInit⟩,
   ⟨0xFFFF00#24, 0x020000#24, fun w => .crcByte w.lo⟩,
   ⟨0xFF0000#24, 0x030000#24, fun w => .crcCheck w.lo w.hi⟩,
   ⟨0xFFFF00#24, 0x100000#24, fun w => .clsStart w.lo⟩,
   ⟨0xFFFF00#24, 0x110000#24, fun w => .clsHdr w.lo⟩,
   ⟨0xFFFFFF#24, 0x120000#24, fun _ => .clsClear⟩,
   ⟨0xFFFFFF#24, 0x300000#24, fun _ => .errClear⟩,
   ⟨0xFFFFFF#24, 0x3F0000#24, fun _ => .softReset⟩]

/-- The command a word encodes, `none` for an illegal word (R51 to R53). -/
def decode (w : CmdWord) : Option Instr :=
  (cmdRows.find? fun r => w &&& r.mask == r.pattern).map fun r => r.build w

/-- One decode entry of the function-code ROM: it selects `fc` when `fc & mask = match` (R56). -/
structure RomRow where
  mask : Byte
  pattern : Byte
  build : Byte → Instr

/-- ROM entries, codes 0x00 to 0x07 (R56). -/
def romRows00 : List RomRow :=
  [⟨0xFF#8, 0x00#8, fun _ => .fc00⟩,
   ⟨0xFF#8, 0x01#8, fun _ => .fc01⟩,
   ⟨0xFF#8, 0x02#8, fun _ => .fc02⟩,
   ⟨0xFF#8, 0x03#8, fun _ => .fc03⟩,
   ⟨0xFF#8, 0x04#8, fun _ => .fc04⟩,
   ⟨0xFF#8, 0x05#8, fun _ => .fc05⟩,
   ⟨0xFF#8, 0x06#8, fun _ => .fc06⟩,
   ⟨0xFF#8, 0x07#8, fun _ => .fc07⟩]

/-- ROM entries, codes 0x08 to 0x0F (R56). -/
def romRows08 : List RomRow :=
  [⟨0xFF#8, 0x08#8, fun _ => .fc08⟩,
   ⟨0xFF#8, 0x09#8, fun _ => .fc09⟩,
   ⟨0xFF#8, 0x0A#8, fun _ => .fc0A⟩,
   ⟨0xFF#8, 0x0B#8, fun _ => .fc0B⟩,
   ⟨0xFF#8, 0x0C#8, fun _ => .fc0C⟩,
   ⟨0xFF#8, 0x0D#8, fun _ => .fc0D⟩,
   ⟨0xFF#8, 0x0E#8, fun _ => .fc0E⟩,
   ⟨0xFF#8, 0x0F#8, fun _ => .fc0F⟩]

/-- ROM entries, codes 0x10 to 0x17 (R56). -/
def romRows10 : List RomRow :=
  [⟨0xFF#8, 0x10#8, fun _ => .fc10⟩,
   ⟨0xFF#8, 0x11#8, fun _ => .fc11⟩,
   ⟨0xFF#8, 0x12#8, fun _ => .fc12⟩,
   ⟨0xFF#8, 0x13#8, fun _ => .fc13⟩,
   ⟨0xFF#8, 0x14#8, fun _ => .fc14⟩,
   ⟨0xFF#8, 0x15#8, fun _ => .fc15⟩,
   ⟨0xFF#8, 0x16#8, fun _ => .fc16⟩,
   ⟨0xFF#8, 0x17#8, fun _ => .fc17⟩]

/-- ROM entries, codes 0x18 to 0xFF (R56). -/
def romRows18 : List RomRow :=
  [⟨0xFF#8, 0x18#8, fun _ => .fc18⟩,
   ⟨0xFF#8, 0x19#8, fun _ => .fc19⟩,
   ⟨0xFE#8, 0x1A#8, fun fc => .fc1A1B fc⟩,
   ⟨0xFC#8, 0x1C#8, fun fc => .fc1C1F fc⟩,
   ⟨0xE0#8, 0x20#8, fun fc => .fc203F fc⟩,
   ⟨0xC0#8, 0x40#8, fun fc => .fc407F fc⟩,
   ⟨0x80#8, 0x80#8, fun fc => .fc80FF fc⟩]

/-- The 31 decode entries of the function-code ROM, as the opcode table lists them (R56). -/
def romRows : List RomRow := romRows00 ++ romRows08 ++ romRows10 ++ romRows18

/-- The ROM entry that a function code selects (R56). -/
def decodeRom (fc : Byte) : Option Instr :=
  (romRows.find? fun r => fc &&& r.mask == r.pattern).map fun r => r.build fc

/-- The two word formats of the opcode table: a 24-bit command word (CMD) and an 8-bit function code (FCROM). -/
inductive TableWord where
  | cmd (w : CmdWord)
  | fcrom (fc : Byte)
  deriving DecidableEq, Repr

/-- The row of the opcode table that a word of either format selects. -/
def decodeWord : TableWord → Option Instr
  | .cmd w => decode w
  | .fcrom fc => decodeRom fc

/-- The word of an instruction: a command's 24 bits (R51, R57) or a ROM entry's function code (R56). -/
def encode : Instr → TableWord
  | .nop => .cmd (CmdWord.pack 0x00#8 0x00#8 0x00#8)
  | .crcInit => .cmd (CmdWord.pack 0x01#8 0x00#8 0x00#8)
  | .crcByte b => .cmd (CmdWord.pack 0x02#8 0x00#8 b)
  | .crcCheck lo hi => .cmd (CmdWord.pack 0x03#8 hi lo)
  | .clsStart fc => .cmd (CmdWord.pack 0x10#8 0x00#8 fc)
  | .clsHdr b => .cmd (CmdWord.pack 0x11#8 0x00#8 b)
  | .clsClear => .cmd (CmdWord.pack 0x12#8 0x00#8 0x00#8)
  | .errClear => .cmd (CmdWord.pack 0x30#8 0x00#8 0x00#8)
  | .softReset => .cmd (CmdWord.pack 0x3F#8 0x00#8 0x00#8)
  | .fc00 => .fcrom 0x00#8
  | .fc01 => .fcrom 0x01#8
  | .fc02 => .fcrom 0x02#8
  | .fc03 => .fcrom 0x03#8
  | .fc04 => .fcrom 0x04#8
  | .fc05 => .fcrom 0x05#8
  | .fc06 => .fcrom 0x06#8
  | .fc07 => .fcrom 0x07#8
  | .fc08 => .fcrom 0x08#8
  | .fc09 => .fcrom 0x09#8
  | .fc0A => .fcrom 0x0A#8
  | .fc0B => .fcrom 0x0B#8
  | .fc0C => .fcrom 0x0C#8
  | .fc0D => .fcrom 0x0D#8
  | .fc0E => .fcrom 0x0E#8
  | .fc0F => .fcrom 0x0F#8
  | .fc10 => .fcrom 0x10#8
  | .fc11 => .fcrom 0x11#8
  | .fc12 => .fcrom 0x12#8
  | .fc13 => .fcrom 0x13#8
  | .fc14 => .fcrom 0x14#8
  | .fc15 => .fcrom 0x15#8
  | .fc16 => .fcrom 0x16#8
  | .fc17 => .fcrom 0x17#8
  | .fc18 => .fcrom 0x18#8
  | .fc19 => .fcrom 0x19#8
  | .fc1A1B fc => .fcrom fc
  | .fc1C1F fc => .fcrom fc
  | .fc203F fc => .fcrom fc
  | .fc407F fc => .fcrom fc
  | .fc80FF fc => .fcrom fc

/-- The command word that makes the block use a word of the opcode table: a command word is itself, and a function code
reaches the ROM as the operand of `CLS_START` (R70; notes/assumptions/4.md). -/
def TableWord.command : TableWord → CmdWord
  | .cmd w => w
  | .fcrom fc => CmdWord.pack 0x10#8 0x00#8 fc

/-- The word of `nbits` bits and value `w` in one of the table's formats: 8 bits is a ROM entry's function code, anything
else a command word. -/
def tableWord (nbits w : Nat) : TableWord :=
  if nbits = 8 then .fcrom (BitVec.ofNat 8 w) else .cmd (BitVec.ofNat 24 w)

/-- The instruction the decoder reads from a word numbered as spec/opcode_table.json numbers its bits. -/
def decodeTableWord (nbits w : Nat) : Option Instr := decodeWord (tableWord nbits w)

end Sys2Proof
end

