-- ==== Sys2Proof/Machine/State.lean ====
section
/-! DEFINITION. The state of the machine. `Fcb` is the spec's record `S` with exactly the fields of R11; `State` adds the
host's side of the two ports: the actions it has still to take and what its reads returned (notes/assumptions/1.md).
The FCB has no registers, program counter or memory (R12, R13, R34), so State has none. -/

namespace Sys2Proof.Machine

/-- The classifier's progress (R17). The code 3 "is never produced by any rule" and has no constructor
(93_implementation_defined.md I1; notes/assumptions/6.md). -/
inductive Phase where
  /-- No function code latched. -/
  | idle
  /-- A variable-length function code is latched and `need` more header bytes are expected. -/
  | waitHdr
  /-- `total` and `hbc` are final. -/
  | done
  deriving DecidableEq, Repr

/-- The class the ROM gives a function code (R10, R19). The codes 6 and 7 are never produced and have no constructor
(93_implementation_defined.md I2; notes/assumptions/6.md). -/
inductive FrameClass where
  | unknown
  | fixed8
  | fixed3
  | exception
  | count8
  | count16
  deriving DecidableEq, Repr

/-- The complete state of the FCB: the record `S` of R11, field by field. -/
structure Fcb where
  /-- Running CRC-16/Modbus value (R14). -/
  crc : Half
  /-- `match`: the result of the last `CRC_CHECK` (R15). -/
  matched : Bool
  /-- A `CRC_CHECK` has been performed since the last write of `crc` (R16). -/
  checked : Bool
  /-- Classifier progress (R17). -/
  phase : Phase
  /-- Function code latched by the last `CLS_START` (R18). -/
  fc : Byte
  /-- Class of `fc` (R19). -/
  cls : FrameClass
  /-- Extra header bytes still to be supplied (R20). -/
  need : BitVec 2
  /-- Extra header bytes consumed so far (R21). -/
  hbc : BitVec 2
  /-- Byte count accumulated from the header bytes (R22). -/
  cnt : Half
  /-- Total frame length, 0 until DONE and for UNKNOWN (R23). -/
  total : Length
  /-- The latched function code has class UNKNOWN (R24). -/
  malformed : Bool
  /-- Sticky: a `CLS_HDR` came when the classifier was not in WAIT_HDR (R25). -/
  errSeq : Bool
  /-- Sticky: an illegal command word was received (R26). -/
  errIll : Bool
  deriving DecidableEq, Repr

/-- What the host can do to the block: write a command word, read a register, or pulse the reset input between two
commands (R9, R35, R97). -/
inductive HostAction where
  /-- Write one word to the command port (R35). -/
  | command (w : CmdWord)
  /-- Read one register of the read port (R38). -/
  | read (a : RegAddr)
  /-- The reset event (R97). -/
  | reset
  deriving DecidableEq, Repr

/-- The machine: the block, and the host at its ports. -/
structure State where
  /-- The block (R11). -/
  fcb : Fcb
  /-- What the host does next, in order (R13, R45). Not state of the block: DESIGN CHOICE, notes/assumptions/1.md. -/
  pending : List HostAction
  /-- What the host's reads returned, oldest first (R38). Not state of the block: DESIGN CHOICE, notes/assumptions/1.md. -/
  reads : List (RegAddr × RegData)
  deriving DecidableEq, Repr

/-- Why the machine stops with a fault: never. "The block never stops, never refuses a later command" (R84) and has no
trap (R86), so there is no reason to name. Safe. -/
inductive Fault
  deriving DecidableEq, Repr

/-- Why a step has no meaning. -/
inductive Refusal where
  /-- Raised by an arm of `exec` whose row has no meaning yet; no arm is left so, and nothing raises it. Safe. -/
  | notModelled (mnemonic : String)
  deriving DecidableEq, Repr

/-- The block after reset (R30, R97): `crc` is the seed and every other field 0. -/
def Fcb.reset : Fcb where
  crc := Config.crcSeed
  matched := false
  checked := false
  phase := .idle
  fc := 0x00#8
  cls := .unknown
  need := 0#2
  hbc := 0#2
  cnt := 0x0000#16
  total := 0#17
  malformed := false
  errSeq := false
  errIll := false

/-- The machine right after reset; the host has nothing pending and has read nothing (DESIGN CHOICE,
notes/assumptions/1.md). -/
def State.reset : State where
  fcb := Fcb.reset
  pending := []
  reads := []

end Sys2Proof.Machine
end

