-- ==== Sys2Proof/Machine/CrcFunction.lean ====
section
/-! DEFINITION. The CRC-16/Modbus function (R59), the source's pure contract over a byte range (R60) and the table-driven
realisation (R67). The bit-level steps are the spec's reading of the source, confirmed by its one vector
(notes/assumptions/9.md). -/

namespace Sys2Proof.Machine

/-- One shift-and-XOR step: bit 0 is tested before the right shift (R59). -/
def crcShift (t : Half) : Half :=
  if t.getLsbD 0 then (t >>> 1) ^^^ Config.crcPoly else t >>> 1

/-- `n` shift-and-XOR steps (R59). -/
def crcShifts : Nat → Half → Half
  | 0, t => t
  | n + 1, t => crcShifts n (crcShift t)

/-- `crc_step8(c, d)`: the byte enters the low 8 bits, then eight steps, no final XOR (R59). -/
def crcStep8 (c : Half) (d : Byte) : Half :=
  crcShifts Config.crcStepsPerByte (c ^^^ d.setWidth 16)

/-- The CRC of a byte sequence from the seed (R60). -/
def crcOf (bytes : List Byte) : Half := bytes.foldl crcStep8 Config.crcSeed

/-- crc-lo, `crc[7:0]`, the byte transmitted first (R14, R36). -/
def crcLo (c : Half) : Byte := c.extractLsb' 0 8

/-- crc-hi, `crc[15:8]`, the byte transmitted second (R14, R36). -/
def crcHi (c : Half) : Byte := c.extractLsb' 8 8

/-- `crc16(buf, off, len) -> (lowByte, highByte)` (R60). `none` where the range leaves the buffer, "a caller error outside
the block" (R60; 93_implementation_defined.md I12). -/
def crc16 (buf : List Byte) (off len : Nat) : Option (Byte × Byte) :=
  if off + len ≤ buf.length then
    let c := crcOf ((buf.drop off).take len)
    some (crcLo c, crcHi c)
  else none

/-- `T[i] = crc_step8(0x0000, i)`, an entry of the derived CRC table (R67). -/
def crcTable (i : Byte) : Half := crcStep8 0x0000#16 i

/-- The table-driven update `(c >> 8) ^ T[(c ^ d) & 0xFF]` (R67). -/
def crcStep8ByTable (c : Half) (d : Byte) : Half :=
  (c >>> 8) ^^^ crcTable ((c ^^^ d.setWidth 16).setWidth 8)

end Sys2Proof.Machine
end

