-- ==== Sys2Proof/Machine/Rom.lean ====
section
/-! DEFINITION. The function-code ROM and the length rule of each class (R56, R68), and the source's one-call classifier
contract as a pure function (R69). -/

namespace Sys2Proof.Machine

/-- `ROM(fc)`, the source's §4.2 table for all 256 codes (R56). -/
def rom (fc : Byte) : FrameClass :=
  if fc.getLsbD 7 then .exception
  else if fc ∈ [0x01#8, 0x02#8, 0x03#8, 0x04#8, 0x0C#8, 0x11#8, 0x14#8, 0x15#8, 0x17#8] then .count8
  else if fc ∈ [0x05#8, 0x06#8, 0x0B#8, 0x0F#8, 0x10#8, 0x16#8] then .fixed8
  else if fc ∈ [0x07#8, 0x08#8] then .fixed3
  else if fc = 0x18#8 then .count16
  else .unknown

/-- `len(cls, N)`, the total frame length in bytes (R68). FIXED3's 3 is normative though shorter than a frame's header
and CRC (90_conflicts.md C3). -/
def frameLen : FrameClass → Nat → Nat
  | .count8, n => n + 5
  | .count16, n => n + 6
  | .fixed8, _ => 8
  | .fixed3, _ => 3
  | .exception, _ => 5
  | .unknown, _ => 0

/-- `hbc(cls)`, the headerBytesConsumed of the class (R68). -/
def headerBytes : FrameClass → Nat
  | .count8 => 1
  | .count16 => 2
  | .fixed8 => 0
  | .fixed3 => 0
  | .exception => 0
  | .unknown => 0

/-- `need0(cls)`, the extra header bytes `CLS_START` asks for (R68). -/
def need0 : FrameClass → BitVec 2
  | .count8 => 1#2
  | .count16 => 2#2
  | .fixed8 => 0#2
  | .fixed3 => 0#2
  | .exception => 0#2
  | .unknown => 0#2

/-- `len(cls, N)` as the 17-bit register `total` holds it; no length exceeds 65541, so nothing wraps (R23, R68). -/
def lengthReg (c : FrameClass) (n : Half) : Length := BitVec.ofNat 17 (frameLen c n.toNat)

/-- `classify(fc, peek)`: the total length and headerBytesConsumed, `peek k` being the `k`-th byte after the function
code (R69). The two-byte count is big-endian (R37). -/
def classify (fc : Byte) (peek : Nat → Byte) : Nat × Nat :=
  match rom fc with
  | .count8 => ((peek 1).toNat + 5, 1)
  | .count16 => ((peek 1).toNat * 256 + (peek 2).toNat + 6, 2)
  | .fixed8 => (8, 0)
  | .fixed3 => (3, 0)
  | .exception => (5, 0)
  | .unknown => (0, 0)

end Sys2Proof.Machine
end

