-- ==== Sys2Proof/Machine/Flags.lean ====
section
/-! DEFINITION. The flags and the packed status words: how `match` and `malformed` are computed (R63, R70), the codes of
phase and class (R17, R19), and the layouts of STATUS (R27) and CLS_INFO (R28). -/

namespace Sys2Proof.Machine

/-- The two-bit code of a phase (R17). -/
def Phase.code : Phase → BitVec 2
  | .idle => 0#2
  | .waitHdr => 1#2
  | .done => 2#2

/-- The three-bit code of a class (R19). -/
def FrameClass.code : FrameClass → BitVec 3
  | .unknown => 0#3
  | .fixed8 => 1#3
  | .fixed3 => 2#3
  | .exception => 3#3
  | .count8 => 4#3
  | .count16 => 5#3

/-- `match` is 1 when the running CRC equals the checked pair (R63). -/
def crcMatches (crc pair : Half) : Bool := crc == pair

/-- `malformed` is 1 when the class is UNKNOWN (R24, R70). -/
def isMalformed (c : FrameClass) : Bool := c == .unknown

/-- STATUS: MATCH 0, CHECKED 1, PHASE 3:2, MALFORMED 4, ERR_SEQ 5, ERR_ILL 6, the rest 0 (R27). -/
def statusWord (S : Fcb) : RegData :=
  0#25 ++ BitVec.ofBool S.errIll ++ BitVec.ofBool S.errSeq ++ BitVec.ofBool S.malformed ++ S.phase.code ++
    BitVec.ofBool S.checked ++ BitVec.ofBool S.matched

/-- CLS_INFO: CLASS 2:0, HBC 4:3, NEED 6:5, the rest 0 (R28). -/
def clsInfoWord (S : Fcb) : RegData := 0#25 ++ S.need ++ S.hbc ++ S.cls.code

end Sys2Proof.Machine
end

