-- ==== Sys2Proof/Machine/Operands.lean ====
section
/-! DEFINITION. How operand bytes are assembled: the checked pair of `CRC_CHECK` (R50) and the big-endian count of
`CLS_HDR` (R37, R71). Nothing is sign-extended, scaled or shifted otherwise (R50). -/

namespace Sys2Proof.Machine

/-- `imm16 = {hi, lo}`, crc-lo in the low byte (R50). -/
def imm16 (lo hi : Byte) : Half := hi ++ lo

/-- `trunc_16((cnt << 8) | zext_16(b))`, big-endian accumulation (R22, R71). -/
def accumulate (cnt : Half) (b : Byte) : Half := (cnt <<< 8) ||| b.setWidth 16

end Sys2Proof.Machine
end

