-- ==== Sys2Proof/Machine/Ops.lean ====
section
/-! DEFINITION. The named operations on the block that the commands share: setting an error flag (R84; the block's only
response to a command it cannot perform, it takes no exception: R86), writing the CRC, starting and advancing the
classifier, and reading the register port (R29, R38). Each is one record update, so all its writes take effect together
(R8). -/

namespace Sys2Proof.Machine

/-- Apply an operation to the block; the host's side is untouched. -/
def State.onBlock (s : State) (f : Fcb → Fcb) : State := { s with fcb := f s.fcb }

/-- The sticky error flags (R84). -/
inductive ErrorFlag where
  | ill
  | seq
  deriving DecidableEq, Repr

/-- `set_error(F)`: sets the flag and changes no other field (R84). -/
def Fcb.setError (F : ErrorFlag) (S : Fcb) : Fcb :=
  match F with
  | .ill => { S with errIll := true }
  | .seq => { S with errSeq := true }

/-- Write `crc`; the earlier check no longer describes it, so `match` and `checked` are cleared (R15, R16, R61, R62). -/
def Fcb.loadCrc (c : Half) (S : Fcb) : Fcb := { S with crc := c, matched := false, checked := false }

/-- Compare `crc` with a received pair and record the result (R63). -/
def Fcb.checkCrc (pair : Half) (S : Fcb) : Fcb := { S with matched := crcMatches S.crc pair, checked := true }

/-- Latch a function code of class `c`: wait for header bytes if the class needs any, else finish at once (R70). -/
def Fcb.startClass (fc : Byte) (c : FrameClass) (S : Fcb) : Fcb :=
  if need0 c = 0#2 then
    { S with fc := fc, cls := c, cnt := 0#16, hbc := 0#2, need := 0#2,
             phase := .done, total := lengthReg c 0#16, malformed := isMalformed c }
  else
    { S with fc := fc, cls := c, cnt := 0#16, hbc := 0#2, need := need0 c,
             phase := .waitHdr, total := 0#17, malformed := false }

/-- Take one extra header byte: accumulate the count, and finish when it was the last (R71;
the two-bit sums in unreachable states: notes/assumptions/7.md). -/
def Fcb.takeHeader (b : Byte) (S : Fcb) : Fcb :=
  let n := accumulate S.cnt b
  if S.need - 1#2 = 0#2 then
    { S with cnt := n, hbc := S.hbc + 1#2, need := S.need - 1#2, total := lengthReg S.cls n, phase := .done }
  else
    { S with cnt := n, hbc := S.hbc + 1#2, need := S.need - 1#2 }

/-- Every classifier field at its reset value (R72). -/
def Fcb.clearClassifier (S : Fcb) : Fcb :=
  { S with phase := .idle, fc := 0x00#8, cls := .unknown, need := 0#2, hbc := 0#2, cnt := 0#16, total := 0#17,
           malformed := false }

/-- Both sticky error flags cleared (R79). -/
def Fcb.clearErrors (S : Fcb) : Fcb := { S with errSeq := false, errIll := false }

/-- The lengths below are given in phase DONE for a class that is not UNKNOWN (R73, R74). -/
def Fcb.lengthKnown (S : Fcb) : Bool := S.phase == .done && !S.malformed

/-- `remain(S)`: the frame bytes the host still has to read (R73; stops at 0 in unreachable states: notes/assumptions/7.md). -/
def Fcb.remain (S : Fcb) : Length :=
  if S.lengthKnown then BitVec.ofNat 17 (S.total.toNat - 2 - S.hbc.toNat) else 0#17

/-- `crclen(S)`: the length of the CRC span (R74). -/
def Fcb.crclen (S : Fcb) : Length :=
  if S.lengthKnown then BitVec.ofNat 17 (S.total.toNat - 2) else 0#17

/-- `RegRead(a)`: the register map, every register zero-extended to 32 bits, reserved addresses 0 (R29, R38). -/
def regRead (a : RegAddr) (S : Fcb) : RegData :=
  match a.toNat with
  | 0x0 => S.crc.setWidth 32
  | 0x1 => (crcLo S.crc).setWidth 32
  | 0x2 => (crcHi S.crc).setWidth 32
  | 0x3 => statusWord S
  | 0x4 => S.fc.setWidth 32
  | 0x5 => clsInfoWord S
  | 0x6 => S.cnt.setWidth 32
  | 0x7 => S.total.setWidth 32
  | 0x8 => S.remain.setWidth 32
  | 0x9 => S.crclen.setWidth 32
  | _ => 0#32

end Sys2Proof.Machine
end

