-- ==== Sys2Proof/Machine/Classifier.lean ====
section
/-! DEFINITION. The classifier unit's commands (41_classifier.md). -/

namespace Sys2Proof.Machine

/-- `CLS_START fc`: legal in every phase (R70). -/
def execClsStart (fc : Byte) (s : State) : Host.Outcome State Fault Refusal :=
  .next (s.onBlock (Fcb.startClass fc (rom fc)))

/-- `CLS_HDR b`: takes the byte in WAIT_HDR, sets ERR_SEQ and nothing else in the other phases (R71). -/
def execClsHdr (b : Byte) (s : State) : Host.Outcome State Fault Refusal :=
  .next (s.onBlock fun S => if S.phase = .waitHdr then S.takeHeader b else S.setError .seq)

/-- `CLS_CLEAR` (R72). -/
def execClsClear (s : State) : Host.Outcome State Fault Refusal :=
  .next (s.onBlock Fcb.clearClassifier)

end Sys2Proof.Machine
end

