-- ==== Sys2Proof/Machine/Control.lean ====
section
/-! DEFINITION. The control commands (42_control.md). None checks a privilege (R82, R91). -/

namespace Sys2Proof.Machine

/-- `NOP` (R78). -/
def execNop (s : State) : Host.Outcome State Fault Refusal :=
  .next s

/-- `ERR_CLEAR` (R79). -/
def execErrClear (s : State) : Host.Outcome State Fault Refusal :=
  .next (s.onBlock Fcb.clearErrors)

/-- `SOFT_RESET`: exactly the effect of the reset event on the block (R80, R97). -/
def execSoftReset (s : State) : Host.Outcome State Fault Refusal :=
  .next (s.onBlock fun _ => Fcb.reset)

end Sys2Proof.Machine
end

