-- ==== Sys2Proof/Machine/Crc.lean ====
section
/-! DEFINITION. The CRC unit's commands (40_crc.md). -/

namespace Sys2Proof.Machine

/-- `CRC_INIT` (R61). -/
def execCrcInit (s : State) : Host.Outcome State Fault Refusal :=
  .next (s.onBlock (Fcb.loadCrc Config.crcSeed))

/-- `CRC_BYTE b` (R62). -/
def execCrcByte (b : Byte) (s : State) : Host.Outcome State Fault Refusal :=
  .next (s.onBlock fun S => S.loadCrc (crcStep8 S.crc b))

/-- `CRC_CHECK lo, hi` (R63). A mismatch is a result, not an error (R85); there is no tolerance for FIXED3 frames
(90_conflicts.md C3, notes/assumptions/10.md). -/
def execCrcCheck (lo hi : Byte) (s : State) : Host.Outcome State Fault Refusal :=
  .next (s.onBlock (Fcb.checkCrc (imm16 lo hi)))

end Sys2Proof.Machine
end

