-- ==== Sys2Proof/Machine/RomRows.lean ====
section
/-! DEFINITION. The meaning of each decode entry of the function-code ROM (R56): what the block does when `CLS_START`
presents a code the entry matches (R70), the class written out from the opcode table's row rather than looked up
(notes/assumptions/4.md). -/

namespace Sys2Proof.Machine

/-- `CLS_START fc` through a ROM entry of class `c` (R70). -/
def startByRow (fc : Byte) (c : FrameClass) (s : State) : Host.Outcome State Fault Refusal :=
  .next (s.onBlock (Fcb.startClass fc c))

/-- ROM entry 0x00 (R56). -/
def execFc00 (s : State) : Host.Outcome State Fault Refusal :=
  startByRow 0x00#8 .unknown s

/-- ROM entry 0x01 (R56). -/
def execFc01 (s : State) : Host.Outcome State Fault Refusal :=
  startByRow 0x01#8 .count8 s

/-- ROM entry 0x02 (R56). -/
def execFc02 (s : State) : Host.Outcome State Fault Refusal :=
  startByRow 0x02#8 .count8 s

/-- ROM entry 0x03 (R56). -/
def execFc03 (s : State) : Host.Outcome State Fault Refusal :=
  startByRow 0x03#8 .count8 s

/-- ROM entry 0x04 (R56). -/
def execFc04 (s : State) : Host.Outcome State Fault Refusal :=
  startByRow 0x04#8 .count8 s

/-- ROM entry 0x05 (R56). -/
def execFc05 (s : State) : Host.Outcome State Fault Refusal :=
  startByRow 0x05#8 .fixed8 s

/-- ROM entry 0x06 (R56). -/
def execFc06 (s : State) : Host.Outcome State Fault Refusal :=
  startByRow 0x06#8 .fixed8 s

/-- ROM entry 0x07 (R56). -/
def execFc07 (s : State) : Host.Outcome State Fault Refusal :=
  startByRow 0x07#8 .fixed3 s

/-- ROM entry 0x08 (R56). -/
def execFc08 (s : State) : Host.Outcome State Fault Refusal :=
  startByRow 0x08#8 .fixed3 s

/-- ROM entry 0x09 (R56). -/
def execFc09 (s : State) : Host.Outcome State Fault Refusal :=
  startByRow 0x09#8 .unknown s

/-- ROM entry 0x0A (R56). -/
def execFc0A (s : State) : Host.Outcome State Fault Refusal :=
  startByRow 0x0A#8 .unknown s

/-- ROM entry 0x0B (R56). -/
def execFc0B (s : State) : Host.Outcome State Fault Refusal :=
  startByRow 0x0B#8 .fixed8 s

/-- ROM entry 0x0C (R56). -/
def execFc0C (s : State) : Host.Outcome State Fault Refusal :=
  startByRow 0x0C#8 .count8 s

/-- ROM entry 0x0D (R56). -/
def execFc0D (s : State) : Host.Outcome State Fault Refusal :=
  startByRow 0x0D#8 .unknown s

/-- ROM entry 0x0E (R56). -/
def execFc0E (s : State) : Host.Outcome State Fault Refusal :=
  startByRow 0x0E#8 .unknown s

/-- ROM entry 0x0F (R56). -/
def execFc0F (s : State) : Host.Outcome State Fault Refusal :=
  startByRow 0x0F#8 .fixed8 s

/-- ROM entry 0x10 (R56). -/
def execFc10 (s : State) : Host.Outcome State Fault Refusal :=
  startByRow 0x10#8 .fixed8 s

/-- ROM entry 0x11 (R56). -/
def execFc11 (s : State) : Host.Outcome State Fault Refusal :=
  startByRow 0x11#8 .count8 s

/-- ROM entry 0x12 (R56). -/
def execFc12 (s : State) : Host.Outcome State Fault Refusal :=
  startByRow 0x12#8 .unknown s

/-- ROM entry 0x13 (R56). -/
def execFc13 (s : State) : Host.Outcome State Fault Refusal :=
  startByRow 0x13#8 .unknown s

/-- ROM entry 0x14 (R56). -/
def execFc14 (s : State) : Host.Outcome State Fault Refusal :=
  startByRow 0x14#8 .count8 s

/-- ROM entry 0x15 (R56). -/
def execFc15 (s : State) : Host.Outcome State Fault Refusal :=
  startByRow 0x15#8 .count8 s

/-- ROM entry 0x16 (R56). -/
def execFc16 (s : State) : Host.Outcome State Fault Refusal :=
  startByRow 0x16#8 .fixed8 s

/-- ROM entry 0x17 (R56). -/
def execFc17 (s : State) : Host.Outcome State Fault Refusal :=
  startByRow 0x17#8 .count8 s

/-- ROM entry 0x18 (R56). -/
def execFc18 (s : State) : Host.Outcome State Fault Refusal :=
  startByRow 0x18#8 .count16 s

/-- ROM entry 0x19 (R56). -/
def execFc19 (s : State) : Host.Outcome State Fault Refusal :=
  startByRow 0x19#8 .unknown s

/-- ROM entry 0x1A to 0x1B (R56). -/
def execFc1A1B (fc : Byte) (s : State) : Host.Outcome State Fault Refusal :=
  startByRow fc .unknown s

/-- ROM entry 0x1C to 0x1F (R56). -/
def execFc1C1F (fc : Byte) (s : State) : Host.Outcome State Fault Refusal :=
  startByRow fc .unknown s

/-- ROM entry 0x20 to 0x3F (R56). -/
def execFc203F (fc : Byte) (s : State) : Host.Outcome State Fault Refusal :=
  startByRow fc .unknown s

/-- ROM entry 0x40 to 0x7F (R56). -/
def execFc407F (fc : Byte) (s : State) : Host.Outcome State Fault Refusal :=
  startByRow fc .unknown s

/-- ROM entry 0x80 to 0xFF (R56). -/
def execFc80FF (fc : Byte) (s : State) : Host.Outcome State Fault Refusal :=
  startByRow fc .exception s

end Sys2Proof.Machine
end

