-- ==== Sys2Proof/Machine/Dispatch.lean ====
section
/-! DEFINITION. One arm per row of the opcode table. -/

namespace Sys2Proof.Machine

def exec (i : Instr) (s : State) : Host.Outcome State Fault Refusal :=
  match i with
  | .nop => Sys2Proof.Machine.execNop s
  | .crcInit => Sys2Proof.Machine.execCrcInit s
  | .crcByte b => Sys2Proof.Machine.execCrcByte b s
  | .crcCheck lo hi => Sys2Proof.Machine.execCrcCheck lo hi s
  | .clsStart fc => Sys2Proof.Machine.execClsStart fc s
  | .clsHdr b => Sys2Proof.Machine.execClsHdr b s
  | .clsClear => Sys2Proof.Machine.execClsClear s
  | .errClear => Sys2Proof.Machine.execErrClear s
  | .softReset => Sys2Proof.Machine.execSoftReset s
  | .fc00 => Sys2Proof.Machine.execFc00 s
  | .fc01 => Sys2Proof.Machine.execFc01 s
  | .fc02 => Sys2Proof.Machine.execFc02 s
  | .fc03 => Sys2Proof.Machine.execFc03 s
  | .fc04 => Sys2Proof.Machine.execFc04 s
  | .fc05 => Sys2Proof.Machine.execFc05 s
  | .fc06 => Sys2Proof.Machine.execFc06 s
  | .fc07 => Sys2Proof.Machine.execFc07 s
  | .fc08 => Sys2Proof.Machine.execFc08 s
  | .fc09 => Sys2Proof.Machine.execFc09 s
  | .fc0A => Sys2Proof.Machine.execFc0A s
  | .fc0B => Sys2Proof.Machine.execFc0B s
  | .fc0C => Sys2Proof.Machine.execFc0C s
  | .fc0D => Sys2Proof.Machine.execFc0D s
  | .fc0E => Sys2Proof.Machine.execFc0E s
  | .fc0F => Sys2Proof.Machine.execFc0F s
  | .fc10 => Sys2Proof.Machine.execFc10 s
  | .fc11 => Sys2Proof.Machine.execFc11 s
  | .fc12 => Sys2Proof.Machine.execFc12 s
  | .fc13 => Sys2Proof.Machine.execFc13 s
  | .fc14 => Sys2Proof.Machine.execFc14 s
  | .fc15 => Sys2Proof.Machine.execFc15 s
  | .fc16 => Sys2Proof.Machine.execFc16 s
  | .fc17 => Sys2Proof.Machine.execFc17 s
  | .fc18 => Sys2Proof.Machine.execFc18 s
  | .fc19 => Sys2Proof.Machine.execFc19 s
  | .fc1A1B fc => Sys2Proof.Machine.execFc1A1B fc s
  | .fc1C1F fc => Sys2Proof.Machine.execFc1C1F fc s
  | .fc203F fc => Sys2Proof.Machine.execFc203F fc s
  | .fc407F fc => Sys2Proof.Machine.execFc407F fc s
  | .fc80FF fc => Sys2Proof.Machine.execFc80FF fc s

end Sys2Proof.Machine
end

