-- ==== Sys2Proof/Machine/Port.lean ====
section
/-! DEFINITION. The host's side: taking its next action off the list, and what the actions that are not legal commands do
(R35, R38, R53, R97). -/

namespace Sys2Proof.Machine

/-- The host's next action, and the machine with that action taken off the list (R45: arrival order). -/
def fetch (s : State) : Option (HostAction × State) :=
  match s.pending with
  | [] => none
  | a :: rest => some (a, { s with pending := rest })

/-- An illegal command word is performed as `set_error(ERR_ILL)` and nothing else (R53, R84). -/
def execIllegal (s : State) : Host.Outcome State Fault Refusal :=
  .next (s.onBlock (Fcb.setError .ill))

/-- A register read: no state of the block changes; the host has the datum (R38). -/
def execRead (a : RegAddr) (s : State) : Host.Outcome State Fault Refusal :=
  .next { s with reads := s.reads ++ [(a, regRead a s.fcb)] }

/-- The reset event: every field of the block at its reset value (R97). The host's own side is not the block's and stays
(notes/assumptions/8.md). -/
def execReset (s : State) : Host.Outcome State Fault Refusal :=
  .next (s.onBlock fun _ => Fcb.reset)

/-- No action pending: nothing happens (R90, R96; notes/assumptions/2.md). -/
def execIdle (s : State) : Host.Outcome State Fault Refusal :=
  .next s

end Sys2Proof.Machine
end

