-- ==== Sys2Proof/Machine/Step.lean ====
section
/-! DEFINITION. One step: the host's next action, performed whole (R9, R41). The decoder checks legality first (R87). -/

namespace Sys2Proof.Machine

/-- One step of the machine (R9). -/
def step (s : State) : Host.Outcome State Fault Refusal :=
  match fetch s with
  | none => execIdle s
  | some (.command w, s') =>
    match decode w with
    | some i => exec i s'
    | none => execIllegal s'
  | some (.read a, s') => execRead a s'
  | some (.reset, s') => execReset s'

/-- `s` with the host about to write the command word that uses the given word of the opcode table: the word itself, or
`CLS_START` with the function code for a ROM entry (notes/assumptions/3.md, notes/assumptions/4.md). -/
def State.withFetchWord (s : State) (nbits w : Nat) : State :=
  { s with pending := .command (tableWord nbits w).command :: s.pending }

end Sys2Proof.Machine
end

