-- ==== Sys2Proof/Machine/Pseudo.lean ====
section
/-! DEFINITION. The pseudo-instructions and their expansions (R58). A pseudo-instruction "is only text: it is performed as
its expansion, command by command". -/

namespace Sys2Proof.Machine

/-- The host action that has the block perform an instruction. -/
def actionOf (i : Instr) : HostAction := .command (encode i).command

/-- `CRC_BLOCK b0, ..., bk-1` (R58). -/
def crcBlock (bytes : List Byte) : List Instr := .crcInit :: bytes.map .crcByte

/-- `FRAME_CHECK b0, ..., bt-1`, for `t ≥ 2` (R58). -/
def frameCheck (frame : List Byte) : Option (List Instr) :=
  match frame.drop (frame.length - 2) with
  | [lo, hi] => some (crcBlock (frame.take (frame.length - 2)) ++ [.crcCheck lo hi])
  | _ => none

/-- `CLS_COUNT16 bh, bl`: the big-endian count word (R58). -/
def clsCount16 (bh bl : Byte) : List Instr := [.clsHdr bh, .clsHdr bl]

/-- `CLS_FRAME fc [, h1 [, h2]]` (R58). -/
def clsFrame (fc : Byte) (headers : List Byte) : Option (List Instr) :=
  if headers.length ≤ 2 then some (.clsStart fc :: headers.map .clsHdr) else none

end Sys2Proof.Machine
end

