-- ==== Sys2Proof/Machine/Asm.lean ====
section
/-! DEFINITION. The FCB's assembly language (R57) with its pseudo-instructions (R58): assembling one line of text into
commands, and the listing line of a command. Text is a list of characters. What R57 leaves open of the lexical form
(blanks, letter case, empty lines) is in notes/assumptions/12.md. -/

namespace Sys2Proof.Machine

/-- The mnemonics of R51 and the pseudo-instructions of R58. -/
inductive Mnemonic where
  | nop | crcInit | crcByte | crcCheck | clsStart | clsHdr | clsClear | errClear | softReset
  | crcBlock | frameCheck | clsCount16 | clsFrame
  deriving DecidableEq, Repr

/-- A mnemonic as R51 and R58 spell it. -/
def Mnemonic.text : Mnemonic → List Char
  | .nop => ['N', 'O', 'P']
  | .crcInit => ['C', 'R', 'C', '_', 'I', 'N', 'I', 'T']
  | .crcByte => ['C', 'R', 'C', '_', 'B', 'Y', 'T', 'E']
  | .crcCheck => ['C', 'R', 'C', '_', 'C', 'H', 'E', 'C', 'K']
  | .clsStart => ['C', 'L', 'S', '_', 'S', 'T', 'A', 'R', 'T']
  | .clsHdr => ['C', 'L', 'S', '_', 'H', 'D', 'R']
  | .clsClear => ['C', 'L', 'S', '_', 'C', 'L', 'E', 'A', 'R']
  | .errClear => ['E', 'R', 'R', '_', 'C', 'L', 'E', 'A', 'R']
  | .softReset => ['S', 'O', 'F', 'T', '_', 'R', 'E', 'S', 'E', 'T']
  | .crcBlock => ['C', 'R', 'C', '_', 'B', 'L', 'O', 'C', 'K']
  | .frameCheck => ['F', 'R', 'A', 'M', 'E', '_', 'C', 'H', 'E', 'C', 'K']
  | .clsCount16 => ['C', 'L', 'S', '_', 'C', 'O', 'U', 'N', 'T', '1', '6']
  | .clsFrame => ['C', 'L', 'S', '_', 'F', 'R', 'A', 'M', 'E']

/-- Every mnemonic. -/
def Mnemonic.all : List Mnemonic :=
  [.nop, .crcInit, .crcByte, .crcCheck, .clsStart, .clsHdr, .clsClear, .errClear, .softReset,
   .crcBlock, .frameCheck, .clsCount16, .clsFrame]

/-- A token of a line: a word between separators, or a comma. -/
inductive Token where
  | word (chars : List Char)
  | comma
  deriving DecidableEq, Repr

/-- The word collected so far, if any, before the tokens that follow. -/
def Token.flush (acc : List Char) (rest : List Token) : List Token :=
  if acc.isEmpty then rest else .word acc.reverse :: rest

/-- The tokens of a line: blanks and tabs separate, `;` starts a comment (R57). `acc` is the word being read, last
character first. -/
def tokens (acc : List Char) : List Char → List Token
  | [] => Token.flush acc []
  | c :: cs =>
    if c = ';' then Token.flush acc []
    else if c = ' ' ∨ c = '\t' then Token.flush acc (tokens [] cs)
    else if c = ',' then Token.flush acc (.comma :: tokens [] cs)
    else tokens (c :: acc) cs

/-- The value of a digit in a base of at most 16, in either letter case. -/
def digitValue (base : Nat) (c : Char) : Option Nat :=
  let n := c.toNat
  let v := if 48 ≤ n ∧ n ≤ 57 then n - 48
    else if 65 ≤ n ∧ n ≤ 70 then n - 55
    else if 97 ≤ n ∧ n ≤ 102 then n - 87
    else base
  if v < base then some v else none

/-- The value of a digit string, continuing from `acc`. -/
def digitsValue (base acc : Nat) : List Char → Option Nat
  | [] => some acc
  | c :: cs => (digitValue base c).bind fun v => digitsValue base (acc * base + v) cs

/-- A number without its prefix: at least one digit, and at most 255 (R57). -/
def numberIn (base : Nat) (ds : List Char) : Option Byte :=
  if ds.isEmpty then none
  else (digitsValue base 0 ds).bind fun v => if v ≤ 255 then some (BitVec.ofNat 8 v) else none

/-- An operand: `0x`-prefixed hexadecimal or decimal, 0 to 255 (R57). -/
def operand : List Char → Option Byte
  | '0' :: 'x' :: ds => numberIn 16 ds
  | ds => numberIn 10 ds

/-- Operands separated by commas (R57). -/
def operands : List Token → Option (List Byte)
  | [] => some []
  | [.word w] => (operand w).map fun b => [b]
  | .word w :: .comma :: .word w' :: rest =>
    (operand w).bind fun b => (operands (.word w' :: rest)).map fun bs => b :: bs
  | _ => none

/-- What a mnemonic with its operands expands to; `none` where the number of operands is wrong (R57, R58). -/
def expand : Mnemonic → List Byte → Option (List Instr)
  | .nop, [] => some [.nop]
  | .crcInit, [] => some [.crcInit]
  | .crcByte, [b] => some [.crcByte b]
  | .crcCheck, [lo, hi] => some [.crcCheck lo hi]
  | .clsStart, [fc] => some [.clsStart fc]
  | .clsHdr, [b] => some [.clsHdr b]
  | .clsClear, [] => some [.clsClear]
  | .errClear, [] => some [.errClear]
  | .softReset, [] => some [.softReset]
  | .crcBlock, bs => some (crcBlock bs)
  | .frameCheck, bs => frameCheck bs
  | .clsCount16, [bh, bl] => some (clsCount16 bh bl)
  | .clsFrame, fc :: hs => clsFrame fc hs
  | _, _ => none

/-- The commands of one line of assembly text (R57, R58); an empty or comment line has none. -/
def assembleLine (line : List Char) : Option (List Instr) :=
  match tokens [] line with
  | [] => some []
  | .word m :: rest =>
    (Mnemonic.all.find? fun k => k.text == m).bind fun k => (operands rest).bind (expand k)
  | .comma :: _ => none

/-- An upper-case hexadecimal digit. -/
def hexDigit (v : Nat) : Char := Char.ofNat (if v < 10 then 48 + v else 55 + v)

/-- The low `n` hexadecimal digits of a number, most significant first. -/
def hexDigits : Nat → Nat → List Char
  | 0, _ => []
  | n + 1, v => hexDigits n (v / 16) ++ [hexDigit (v % 16)]

/-- A byte operand in a listing, `0x` and two digits (R57). -/
def operandText (b : Byte) : List Char := '0' :: 'x' :: hexDigits 2 b.toNat

/-- The assembly text of a command (R57); a ROM entry is no command and has none. -/
def commandText : Instr → Option (List Char)
  | .nop => some Mnemonic.nop.text
  | .crcInit => some Mnemonic.crcInit.text
  | .crcByte b => some (Mnemonic.crcByte.text ++ ' ' :: operandText b)
  | .crcCheck lo hi => some (Mnemonic.crcCheck.text ++ ' ' :: operandText lo ++ ',' :: ' ' :: operandText hi)
  | .clsStart fc => some (Mnemonic.clsStart.text ++ ' ' :: operandText fc)
  | .clsHdr b => some (Mnemonic.clsHdr.text ++ ' ' :: operandText b)
  | .clsClear => some Mnemonic.clsClear.text
  | .errClear => some Mnemonic.errClear.text
  | .softReset => some Mnemonic.softReset.text
  | .fc00 => none
  | .fc01 => none
  | .fc02 => none
  | .fc03 => none
  | .fc04 => none
  | .fc05 => none
  | .fc06 => none
  | .fc07 => none
  | .fc08 => none
  | .fc09 => none
  | .fc0A => none
  | .fc0B => none
  | .fc0C => none
  | .fc0D => none
  | .fc0E => none
  | .fc0F => none
  | .fc10 => none
  | .fc11 => none
  | .fc12 => none
  | .fc13 => none
  | .fc14 => none
  | .fc15 => none
  | .fc16 => none
  | .fc17 => none
  | .fc18 => none
  | .fc19 => none
  | .fc1A1B _ => none
  | .fc1C1F _ => none
  | .fc203F _ => none
  | .fc407F _ => none
  | .fc80FF _ => none

/-- A listing line: the word as six hexadecimal digits before the text (R57). -/
def listingLine (i : Instr) : Option (List Char) :=
  (commandText i).map fun text => hexDigits 6 (encode i).command.toNat ++ ' ' :: ' ' :: text

end Sys2Proof.Machine
end

