-- ==== Sys2Proof/Machine/Conditions.lean ====
section
/-! DEFINITION. The four conditions the block reports (R83): when a command word raises each, and how each shows in the
block's flags. The codes "are only names for this table; no register holds a code". -/

namespace Sys2Proof.Machine

/-- The conditions of R83. -/
inductive Condition where
  /-- Sticky error: an illegal command word. -/
  | illegalWord
  /-- Sticky error: a header byte out of phase. -/
  | sequence
  /-- Result: a function code of class UNKNOWN. -/
  | malformedFrame
  /-- Result: the checked pair is not the CRC. -/
  | crcMismatch
  deriving DecidableEq, Repr

/-- The code column of R83. -/
def Condition.code : Condition → Nat
  | .illegalWord => 1
  | .sequence => 2
  | .malformedFrame => 3
  | .crcMismatch => 4

/-- The "raised by" column of R83, for the word `w` performed in the state `S`. -/
def Condition.raisedBy (w : CmdWord) (S : Fcb) : Condition → Bool
  | .illegalWord => (decode w).isNone
  | .sequence => w &&& 0xFFFF00#24 == 0x110000#24 && S.phase != .waitHdr
  | .malformedFrame => w &&& 0xFFFF00#24 == 0x100000#24 && rom w.lo == .unknown
  | .crcMismatch => w &&& 0xFF0000#24 == 0x030000#24 && S.crc != w.imm16

/-- The "STATUS bit" column of R83: how the condition shows in STATUS. -/
def Condition.reported (S : Fcb) : Condition → Bool
  | .illegalWord => (regRead 0x3#4 S).getLsbD 6
  | .sequence => (regRead 0x3#4 S).getLsbD 5
  | .malformedFrame => (regRead 0x3#4 S).getLsbD 4
  | .crcMismatch => (regRead 0x3#4 S).getLsbD 1 && !(regRead 0x3#4 S).getLsbD 0

end Sys2Proof.Machine
end

