-- ==== Sys2Proof/Safety.lean ====
section
/-! DEFINITION. What claims are stated in: the invariants of R31, the two units' parts of the state (R2), and the host
obligations that statements over runs carry as hypotheses (R64, R75, R102, R103). -/

namespace Sys2Proof.Machine

/-- The invariants of R31. `phase ∈ {0, 1, 2}` and `cls ≤ 5` hold by the types (notes/assumptions/6.md) and are stated of
the codes the host reads. -/
abbrev Fcb.Inv (S : Fcb) : Prop :=
  (S.phase.code.toNat ≤ 2 ∧ S.need.toNat ≤ 2 ∧ S.hbc.toNat ≤ 2 ∧ S.cls.code.toNat ≤ 5) ∧
  (S.phase = .idle → S.fc = 0#8 ∧ S.cls = .unknown ∧ S.need = 0#2 ∧ S.hbc = 0#2 ∧ S.cnt = 0#16 ∧ S.total = 0#17 ∧
    S.malformed = false) ∧
  (S.phase = .waitHdr → (S.cls = .count8 ∨ S.cls = .count16) ∧ 1 ≤ S.need.toNat ∧
    S.need.toNat + S.hbc.toNat = (if S.cls = .count8 then 1 else 2) ∧ S.total = 0#17 ∧ S.malformed = false ∧
    S.cls = rom S.fc) ∧
  (S.phase = .done → S.need = 0#2 ∧ S.cls = rom S.fc ∧ S.total.toNat = frameLen S.cls S.cnt.toNat ∧
    S.hbc.toNat = headerBytes S.cls ∧ (S.malformed = true ↔ S.cls = .unknown)) ∧
  (S.checked = false → S.matched = false)

/-- The count holds no more bytes than were taken: "after one byte it is that byte" (R22), so `trunc_16` never discards a
set bit (R71). -/
abbrev Fcb.CountInv (S : Fcb) : Prop := S.cnt.toNat < 256 ^ S.hbc.toNat

/-- The two states agree on the CRC unit (R2). -/
abbrev Fcb.sameCrcUnit (S T : Fcb) : Prop := S.crc = T.crc ∧ S.matched = T.matched ∧ S.checked = T.checked

/-- The two states agree on the classifier unit (R2). -/
abbrev Fcb.sameClassifier (S T : Fcb) : Prop :=
  S.phase = T.phase ∧ S.fc = T.fc ∧ S.cls = T.cls ∧ S.need = T.need ∧ S.hbc = T.hbc ∧ S.cnt = T.cnt ∧
  S.total = T.total ∧ S.malformed = T.malformed

/-- The two states agree on the sticky error flags. -/
abbrev Fcb.sameErrors (S T : Fcb) : Prop := S.errSeq = T.errSeq ∧ S.errIll = T.errIll

/-- The host's side is the same. -/
abbrev State.sameHost (s t : State) : Prop := s.pending = t.pending ∧ s.reads = t.reads

/-- The byte a host action feeds to the CRC unit: the operand of a `CRC_BYTE` (R64). -/
def HostAction.crcFeed : HostAction → Option Byte
  | .command w =>
    match decode w with
    | some (.crcByte b) => some b
    | _ => none
  | .read _ => none
  | .reset => none

/-- No `CRC_*` command, no `SOFT_RESET`, no reset: what may stand between the bytes of one CRC (R64). -/
def HostAction.leavesCrc : HostAction → Bool
  | .command w =>
    match decode w with
    | some .crcInit => false
    | some (.crcByte _) => false
    | some (.crcCheck _ _) => false
    | some .softReset => false
    | _ => true
  | .read _ => true
  | .reset => false

/-- No `CLS_*` command, no `SOFT_RESET`, no reset: what may stand between the commands of one classification (R75). -/
def HostAction.leavesClassifier : HostAction → Bool
  | .command w =>
    match decode w with
    | some (.clsStart _) => false
    | some (.clsHdr _) => false
    | some .clsClear => false
    | some .softReset => false
    | _ => true
  | .read _ => true
  | .reset => false

/-- The action is a legal command or a read: it sets no ERR_ILL (R83). -/
def HostAction.legal : HostAction → Bool
  | .command w => (decode w).isSome
  | .read _ => true
  | .reset => true

/-- The header bytes of a classification, each preceded by actions that leave the classifier alone (R75). -/
def headerActions : List (List HostAction × Byte) → List HostAction
  | [] => []
  | (between, b) :: rest => between ++ actionOf (.clsHdr b) :: headerActions rest

/-- The instruction that a host action performs, if it is a legal command word. -/
def HostAction.instr : HostAction → Option Instr
  | .command w => decode w
  | .read _ => none
  | .reset => none

/-- Every action the host has pending is performed: one step each. -/
def runPending (s : State) : Host.Outcome State Fault Refusal :=
  Sys2Proof.core.run s.pending.length s

/-- Instructions performed one after another, stopping at the first that gives no next state. -/
def execAll : List Instr → State → Host.Outcome State Fault Refusal
  | [], s => .next s
  | i :: rest, s =>
    match exec i s with
    | .next t => execAll rest t
    | .fault r => .fault r
    | .refused r => .refused r

/-- The word is performed as `set_error(ERR_ILL)` and nothing else (R53, R84). -/
def performedAsIllegal (w : CmdWord) : Prop :=
  ∀ (s : State) (rest : List HostAction), s.pending = .command w :: rest →
    ∃ t, step s = .next t ∧ t.fcb = { s.fcb with errIll := true }

end Sys2Proof.Machine
end

