-- ==== Sys2Proof/Certificates/Slice0/Obligations.lean ====
section
/-! DEFINITION. The statements for the provers, from the numbered rules of spec/. A rule's statement speaks of the block
(`fcb`); that the host's side stays is the model's own (notes/assumptions/1.md) and has a statement of its own. -/

open Sys2Proof Sys2Proof.Machine

/-! ## Encoding (30_encoding.md) -/

/-- Decoding the encoding of a well-formed instruction gives it back, with every operand, for every row of the opcode
table (R51, R56). -/
def Obligations.DecodeEncodeRoundTrip : Prop :=
  ∀ i : Instr, i.wellFormed = true → decodeWord (encode i) = some i

/-- Every word that decodes is the encoding of its instruction, which is well-formed: no two words mean the same and no
operand bit is ignored (R51, R52, R56). -/
def Obligations.EncodeDecodeRoundTrip : Prop :=
  ∀ (x : TableWord) (i : Instr), decodeWord x = some i → i.wellFormed = true ∧ encode i = x

/-- R51: each command is encoded by exactly the words its match and mask give, with its operands from the fields, so the
rows do not overlap. -/
def Obligations.CommandEncodings : Prop :=
  ∀ w : CmdWord,
    (decode w = some .nop ↔ w &&& 0xFFFFFF#24 = 0x000000#24) ∧
    (decode w = some .crcInit ↔ w &&& 0xFFFFFF#24 = 0x010000#24) ∧
    (∀ b, decode w = some (.crcByte b) ↔ w &&& 0xFFFF00#24 = 0x020000#24 ∧ b = w.extractLsb' 0 8) ∧
    (∀ lo hi, decode w = some (.crcCheck lo hi) ↔
      w &&& 0xFF0000#24 = 0x030000#24 ∧ hi ++ lo = w.extractLsb' 0 16) ∧
    (∀ fc, decode w = some (.clsStart fc) ↔ w &&& 0xFFFF00#24 = 0x100000#24 ∧ fc = w.extractLsb' 0 8) ∧
    (∀ b, decode w = some (.clsHdr b) ↔ w &&& 0xFFFF00#24 = 0x110000#24 ∧ b = w.extractLsb' 0 8) ∧
    (decode w = some .clsClear ↔ w &&& 0xFFFFFF#24 = 0x120000#24) ∧
    (decode w = some .errClear ↔ w &&& 0xFFFFFF#24 = 0x300000#24) ∧
    (decode w = some .softReset ↔ w &&& 0xFFFFFF#24 = 0x3F0000#24)

/-- R52, R53: a word is illegal exactly when its opcode is not one of the nine or a must-be-zero operand bit is set; 247
opcodes are unassigned; an illegal word only sets ERR_ILL. -/
def Obligations.IllegalWords : Prop :=
  (∀ w : CmdWord, decode w = none ↔
    w.extractLsb' 16 8 ∉ [0x00#8, 0x01#8, 0x02#8, 0x03#8, 0x10#8, 0x11#8, 0x12#8, 0x30#8, 0x3F#8] ∨
    (w.extractLsb' 16 8 ∈ [0x00#8, 0x01#8, 0x12#8, 0x30#8, 0x3F#8] ∧ w.extractLsb' 0 16 ≠ 0#16) ∨
    (w.extractLsb' 16 8 ∈ [0x02#8, 0x10#8, 0x11#8] ∧ w.extractLsb' 8 8 ≠ 0#8)) ∧
  ((List.range 256).filter fun op =>
    BitVec.ofNat 8 op ∉ [0x00#8, 0x01#8, 0x02#8, 0x03#8, 0x10#8, 0x11#8, 0x12#8, 0x30#8, 0x3F#8]).length = 247 ∧
  (∀ w : CmdWord, decode w = none → performedAsIllegal w)

/-- A few words of each family written out from the tables (R51, R56). -/
def Obligations.WordsOfTheTables : Prop :=
  decode 0x000000#24 = some .nop ∧ decode 0x010000#24 = some .crcInit ∧
  decode 0x0200FF#24 = some (.crcByte 0xFF#8) ∧ decode 0x03CDC5#24 = some (.crcCheck 0xC5#8 0xCD#8) ∧
  decode 0x100083#24 = some (.clsStart 0x83#8) ∧ decode 0x110006#24 = some (.clsHdr 0x06#8) ∧
  decode 0x120000#24 = some .clsClear ∧ decode 0x300000#24 = some .errClear ∧
  decode 0x3F0000#24 = some .softReset ∧ decode 0x110100#24 = none ∧
  decodeRom 0x18#8 = some .fc18 ∧ decodeRom 0x1B#8 = some (.fc1A1B 0x1B#8) ∧ decodeRom 0x83#8 = some (.fc80FF 0x83#8)

/-- R56: the class of every function code, by the table's ranges, and the count of codes in each class. -/
def Obligations.RomIsTheSourcesTable : Prop :=
  (∀ fc : Byte,
    (fc.toNat ∈ [0x01, 0x02, 0x03, 0x04, 0x0C, 0x11, 0x14, 0x15, 0x17] → rom fc = .count8) ∧
    (fc.toNat ∈ [0x05, 0x06, 0x0B, 0x0F, 0x10, 0x16] → rom fc = .fixed8) ∧
    (fc.toNat ∈ [0x07, 0x08] → rom fc = .fixed3) ∧
    (fc.toNat = 0x18 → rom fc = .count16) ∧
    (0x80 ≤ fc.toNat → rom fc = .exception) ∧
    (fc.toNat ∈ [0x00, 0x09, 0x0A, 0x0D, 0x0E, 0x12, 0x13] ∨ (0x19 ≤ fc.toNat ∧ fc.toNat ≤ 0x7F) →
      rom fc = .unknown)) ∧
  (∀ p ∈ [(FrameClass.count8, 9), (.fixed8, 6), (.fixed3, 2), (.count16, 1), (.exception, 128), (.unknown, 110)],
    ((List.range 256).filter fun n => rom (BitVec.ofNat 8 n) = p.1).length = p.2) ∧
  FrameClass.unknown.code = 0#3 ∧ FrameClass.fixed8.code = 1#3 ∧ FrameClass.fixed3.code = 2#3 ∧
  FrameClass.exception.code = 3#3 ∧ FrameClass.count8.code = 4#3 ∧ FrameClass.count16.code = 5#3

/-! ## The step and the ports -/

/-- A step performs the instruction that the word at the head of the host's list decodes to, on the machine with that word
taken off; with nothing pending it changes nothing (R9, R41; the list is the model's own: notes/assumptions/1.md and 2.md). -/
def Obligations.StepRunsDecodedCommand : Prop :=
  (∀ (s : State) (w : CmdWord) (rest : List HostAction) (i : Instr),
    s.pending = .command w :: rest → decode w = some i → step s = exec i { s with pending := rest }) ∧
  (∀ s : State, s.pending = [] → step s = .next s)

/-- The block never stops: every step answers a next state, and so does every instruction (R84, R86). -/
def Obligations.MachineNeverStops : Prop :=
  (∀ s : State, ∃ t, step s = .next t) ∧ (∀ (i : Instr) (s : State), ∃ t, exec i s = .next t)

/-- No instruction touches the host's side of the ports (the model's own fields: notes/assumptions/1.md). -/
def Obligations.ExecLeavesTheHostSide : Prop :=
  ∀ (i : Instr) (s t : State), exec i s = .next t → s.sameHost t

/-- R84: `set_error` sets its flag and changes no other field; an illegal word and a header byte out of phase do only that;
the machine goes on. -/
def Obligations.SetErrorSetsOnlyItsFlag : Prop :=
  (∀ S : Fcb, S.setError .ill = { S with errIll := true } ∧ S.setError .seq = { S with errSeq := true }) ∧
  (∀ w : CmdWord, decode w = none → performedAsIllegal w) ∧
  (∀ (s : State) (w : CmdWord) (rest : List HostAction) (b : Byte), s.pending = .command w :: rest →
    decode w = some (.clsHdr b) → s.fcb.phase ≠ .waitHdr →
    ∃ t, step s = .next t ∧ t.fcb = { s.fcb with errSeq := true }) ∧
  (∀ s t : State, step s = .next t → ∃ u, step t = .next u)

/-- R38: a read returns the register map's value for the state after every earlier command, changes no state of the block,
raises no error, and may be repeated with the same result; reserved addresses read 0. -/
def Obligations.ReadPortIsSideEffectFree : Prop :=
  (∀ (s : State) (a : RegAddr) (rest : List HostAction), s.pending = .read a :: rest →
    ∃ t, step s = .next t ∧ t.fcb = s.fcb ∧ t.reads = s.reads ++ [(a, regRead a s.fcb)]) ∧
  (∀ (s : State) (w : CmdWord) (a : RegAddr) (rest : List HostAction) (t : State),
    s.pending = .command w :: .read a :: .read a :: rest → step s = .next t →
    ∃ u v, step t = .next u ∧ step u = .next v ∧ v.fcb = t.fcb ∧
      v.reads = s.reads ++ [(a, regRead a t.fcb), (a, regRead a t.fcb)]) ∧
  (∀ (a : RegAddr) (S : Fcb), 0xA ≤ a.toNat → regRead a S = 0#32)

/-- R29: what each address of the read port reads, and what it reads after reset. -/
def Obligations.RegisterMap : Prop :=
  (∀ S : Fcb,
    regRead 0x0#4 S = S.crc.setWidth 32 ∧
    regRead 0x1#4 S = (S.crc.extractLsb' 0 8).setWidth 32 ∧
    regRead 0x2#4 S = (S.crc.extractLsb' 8 8).setWidth 32 ∧
    regRead 0x3#4 S = statusWord S ∧
    regRead 0x4#4 S = S.fc.setWidth 32 ∧
    regRead 0x5#4 S = clsInfoWord S ∧
    regRead 0x6#4 S = S.cnt.setWidth 32 ∧
    regRead 0x7#4 S = S.total.setWidth 32 ∧
    regRead 0x8#4 S = S.remain.setWidth 32 ∧
    regRead 0x9#4 S = S.crclen.setWidth 32 ∧
    ∀ a : RegAddr, 0xA ≤ a.toNat → regRead a S = 0#32) ∧
  (∀ a : RegAddr, regRead a State.reset.fcb =
    if a = 0x0#4 then 0x0000FFFF#32 else if a = 0x1#4 ∨ a = 0x2#4 then 0x000000FF#32 else 0#32) ∧
  (∀ (s : State) (a : RegAddr) (rest : List HostAction), s.pending = .read a :: rest →
    ∃ t, step s = .next t ∧ t.fcb = s.fcb)

/-- R27, R28: the fields of STATUS and CLS_INFO; every other bit reads 0. -/
def Obligations.StatusAndInfoLayouts : Prop :=
  ∀ S : Fcb,
    (regRead 0x3#4 S).getLsbD 0 = S.matched ∧ (regRead 0x3#4 S).getLsbD 1 = S.checked ∧
    (regRead 0x3#4 S).extractLsb' 2 2 =
      (match S.phase with | .idle => 0#2 | .waitHdr => 1#2 | .done => 2#2) ∧
    (regRead 0x3#4 S).getLsbD 4 = S.malformed ∧ (regRead 0x3#4 S).getLsbD 5 = S.errSeq ∧
    (regRead 0x3#4 S).getLsbD 6 = S.errIll ∧ (regRead 0x3#4 S).extractLsb' 7 25 = 0#25 ∧
    (regRead 0x5#4 S).extractLsb' 0 3 =
      (match S.cls with
        | .unknown => 0#3 | .fixed8 => 1#3 | .fixed3 => 2#3 | .exception => 3#3 | .count8 => 4#3 | .count16 => 5#3) ∧
    (regRead 0x5#4 S).extractLsb' 3 2 = S.hbc ∧ (regRead 0x5#4 S).extractLsb' 5 2 = S.need ∧
    (regRead 0x5#4 S).extractLsb' 7 25 = 0#25

/-- The three views of `crc` agree (R39). -/
def Obligations.CrcViewsAgree : Prop :=
  ∀ S : Fcb, regRead 0x0#4 S =
    ((regRead 0x2#4 S).extractLsb' 0 8 ++ (regRead 0x1#4 S).extractLsb' 0 8).setWidth 32

/-- Actions take effect in the order the host makes them, one step each: running two lists is running the first and then the
second (R45; the list is the model's own: notes/assumptions/1.md). -/
def Obligations.ActionsTakeEffectInOrder : Prop :=
  ∀ (s t : State) (first second : List HostAction), s.pending = first ++ second →
    Sys2Proof.core.run first.length s = .next t →
    t.pending = second ∧ runPending s = runPending t

/-- Running the words of instructions through the port is performing the instructions (R9, R58; ROM entries through
`CLS_START`: notes/assumptions/4.md). -/
def Obligations.RunningWordsPerformsInstructions : Prop :=
  ∀ (s : State) (is : List Instr), (∀ i ∈ is, i.wellFormed = true) → s.pending = is.map actionOf →
    runPending s = execAll is { s with pending := [] }

/-! ## Reset and control (42_control.md, 70_reset_and_hazards.md) -/

/-- R30, R97: after reset, after the reset event in any state and after `SOFT_RESET`, every field holds its reset value. -/
def Obligations.ResetValues : Prop :=
  let S0 : Fcb := { crc := 0xFFFF#16, matched := false, checked := false, phase := .idle, fc := 0x00#8,
                    cls := .unknown, need := 0#2, hbc := 0#2, cnt := 0#16, total := 0#17, malformed := false,
                    errSeq := false, errIll := false }
  State.reset.fcb = S0 ∧
  (∀ (s : State) (rest : List HostAction), s.pending = .reset :: rest → ∃ t, step s = .next t ∧ t.fcb = S0) ∧
  (∀ s : State, ∃ t, exec .softReset s = .next t ∧ t.fcb = S0)

/-- `SOFT_RESET` (R80): its word, its effect, its idempotence, and that a word with its opcode and an operand resets
nothing. (R80's example says every address but 0x0 then reads 0; R29's reset values are followed: notes/assumptions/14.md.) -/
def Obligations.SoftReset : Prop :=
  encode .softReset = .cmd 0x3F0000#24 ∧
  (∀ s : State, exec .softReset s = .next { s with fcb := State.reset.fcb }) ∧
  (∀ s t : State, exec .softReset s = .next t → exec .softReset t = .next t) ∧
  (∀ imm : Half, imm ≠ 0#16 → performedAsIllegal (0x3F#8 ++ imm))

/-- R78: `NOP` changes nothing and is the only no-operation word of its opcode. -/
def Obligations.NopDoesNothing : Prop :=
  encode .nop = .cmd 0x000000#24 ∧
  (∀ s : State, exec .nop s = .next s) ∧
  (∀ imm : Half, imm ≠ 0#16 → performedAsIllegal (0x00#8 ++ imm)) ∧
  (∀ s : State, ∃ t, execAll [.clsStart 0x03#8, .nop] s = .next t ∧ t.fcb.phase = .waitHdr ∧ t.fcb.need = 1#2)

/-- R79: `ERR_CLEAR` clears both sticky flags and nothing else. -/
def Obligations.ErrClearClearsStickyFlags : Prop :=
  encode .errClear = .cmd 0x300000#24 ∧
  (∀ s : State, ∃ t, exec .errClear s = .next t ∧ t.fcb = { s.fcb with errSeq := false, errIll := false }) ∧
  (∀ s t : State, exec .errClear s = .next t → exec .errClear t = .next t) ∧
  (∀ imm : Half, imm ≠ 0#16 → performedAsIllegal (0x30#8 ++ imm)) ∧
  (∀ s t : State, regRead 0x3#4 s.fcb = 0x60#32 → exec .errClear s = .next t → regRead 0x3#4 t.fcb = 0x00#32)

/-! ## The CRC unit (40_crc.md) -/

/-- R59: the byte enters the low 8 bits, then eight steps that test bit 0, shift right and XOR 0xA001; no final XOR. -/
def Obligations.CrcStepIsEightShiftsAndXors : Prop :=
  let f : Half → Half := fun t => if t.getLsbD 0 = true then (t >>> 1) ^^^ 0xA001#16 else t >>> 1
  (∀ (c : Half) (d : Byte), crcStep8 c d = f (f (f (f (f (f (f (f (c ^^^ d.setWidth 16))))))))) ∧
  crcOf [0x01#8, 0x03#8, 0x00#8, 0x00#8, 0x00#8, 0x0A#8] = 0xCDC5#16

/-- R60: `crc16` is total where the bytes exist, gives the pair (crc-lo, crc-hi), starts from the seed, and absorbs one more
byte by `crc_step8`. -/
def Obligations.Crc16Contract : Prop :=
  (∀ (buf : List Byte) (off len : Nat), off + len ≤ buf.length ↔ (crc16 buf off len).isSome = true) ∧
  (∀ (buf : List Byte) (off : Nat), off ≤ buf.length → crc16 buf off 0 = some (0xFF#8, 0xFF#8)) ∧
  (∀ (buf : List Byte) (off len : Nat) (lo hi d : Byte), crc16 buf off len = some (lo, hi) →
    buf[off + len]? = some d →
    crc16 buf off (len + 1) =
      some ((crcStep8 (hi ++ lo) d).extractLsb' 0 8, (crcStep8 (hi ++ lo) d).extractLsb' 8 8))

/-- R61: `CRC_INIT`. -/
def Obligations.CrcInitSeeds : Prop :=
  encode .crcInit = .cmd 0x010000#24 ∧
  (∀ s : State, ∃ t, exec .crcInit s = .next t ∧
    t.fcb = { s.fcb with crc := 0xFFFF#16, matched := false, checked := false }) ∧
  (∀ imm : Half, imm ≠ 0#16 → performedAsIllegal (0x01#8 ++ imm)) ∧
  (∀ s t : State, exec .crcInit s = .next t → exec .crcInit t = .next t) ∧
  exec .crcInit State.reset = .next State.reset ∧
  (∀ s t : State, exec .crcInit s = .next t → regRead 0x1#4 t.fcb = 0xFF#32 ∧ regRead 0x2#4 t.fcb = 0xFF#32)

/-- R62: `CRC_BYTE b`. -/
def Obligations.CrcByteAbsorbs : Prop :=
  (∀ b : Byte, encode (.crcByte b) = .cmd (0x0200#16 ++ b)) ∧
  (∀ (s : State) (b : Byte), ∃ t, exec (.crcByte b) s = .next t ∧
    t.fcb = { s.fcb with crc := crcStep8 s.fcb.crc b, matched := false, checked := false }) ∧
  (∀ hi b : Byte, hi ≠ 0#8 → performedAsIllegal (0x02#8 ++ hi ++ b)) ∧
  crcStep8 0xFFFF#16 0xFF#8 = 0x00FF#16 ∧ crcStep8 0xFFFF#16 0x00#8 = 0x40BF#16 ∧
  crcStep8 0x0000#16 0x00#8 = 0x0000#16 ∧ crcStep8 0xFFFF#16 0x01#8 = 0x807E#16

/-- R63: `CRC_CHECK lo, hi`. -/
def Obligations.CrcCheckCompares : Prop :=
  (∀ lo hi : Byte, encode (.crcCheck lo hi) = .cmd (0x03#8 ++ hi ++ lo)) ∧
  (∀ imm : Half, (decode (0x03#8 ++ imm)).isSome = true) ∧
  (∀ (s : State) (lo hi : Byte), ∃ t, exec (.crcCheck lo hi) s = .next t ∧
    t.fcb = { s.fcb with matched := decide (s.fcb.crc = hi ++ lo), checked := true } ∧
    (t.fcb.matched = true ↔ s.fcb.crc.extractLsb' 0 8 = lo ∧ s.fcb.crc.extractLsb' 8 8 = hi)) ∧
  (∀ (s : State) (lo hi lo' hi' : Byte), ∃ t, execAll [.crcCheck lo hi, .crcCheck lo' hi'] s = .next t ∧
    t.fcb.crc = s.fcb.crc ∧ t.fcb.matched = decide (s.fcb.crc = hi' ++ lo')) ∧
  (∀ (s : State) (lo hi : Byte), ∃ t, execAll [.crcInit, .crcCheck lo hi] s = .next t ∧
    t.fcb.matched = decide (hi ++ lo = 0xFFFF#16)) ∧
  (∀ s : State, ∃ t u,
    execAll (crcBlock [0x01#8, 0x03#8, 0x00#8, 0x00#8, 0x00#8, 0x0A#8] ++ [.crcCheck 0xC5#8 0xCD#8]) s = .next t ∧
    t.fcb.matched = true ∧ t.fcb.checked = true ∧ exec (.crcCheck 0xCD#8 0xC5#8) t = .next u ∧
    u.fcb.matched = false)

/-- The CRC commands leave the classifier, the error flags and, for `CRC_CHECK`, the CRC itself unchanged (R61 to R63, R2). -/
def Obligations.CrcCommandsFrame : Prop :=
  ∀ (i : Instr) (s t : State), (i = .crcInit ∨ (∃ b, i = .crcByte b) ∨ ∃ lo hi, i = .crcCheck lo hi) →
    exec i s = .next t →
    s.fcb.sameClassifier t.fcb ∧ s.fcb.sameErrors t.fcb ∧ s.sameHost t ∧
    ((∃ lo hi, i = .crcCheck lo hi) → t.fcb.crc = s.fcb.crc)

/-- `crc` changes only by `CRC_INIT`, `CRC_BYTE`, `SOFT_RESET` and reset (R14). -/
def Obligations.OnlyCrcWritersChangeCrc : Prop :=
  ∀ (s t : State), step s = .next t → t.fcb.crc ≠ s.fcb.crc →
    ∃ a rest, s.pending = a :: rest ∧
      (a = .reset ∨ a.instr = some .crcInit ∨ a.instr = some .softReset ∨ ∃ b, a.instr = some (.crcByte b))

/-- R15, R16: `match` and `checked` are written by `CRC_CHECK`, cleared by `CRC_INIT`, `CRC_BYTE`, `SOFT_RESET` and reset,
left alone by everything else, and read at STATUS[0] and STATUS[1]. -/
def Obligations.CheckResultLifetime : Prop :=
  (∀ (s t : State) (a : HostAction) (rest : List HostAction), s.pending = a :: rest → step s = .next t →
    (∀ lo hi, a.instr = some (.crcCheck lo hi) →
      t.fcb.matched = decide (s.fcb.crc = hi ++ lo) ∧ t.fcb.checked = true) ∧
    ((a = .reset ∨ a.instr = some .crcInit ∨ a.instr = some .softReset ∨ ∃ b, a.instr = some (.crcByte b)) →
      t.fcb.matched = false ∧ t.fcb.checked = false) ∧
    ((∀ lo hi, a.instr ≠ some (.crcCheck lo hi)) → a ≠ .reset → a.instr ≠ some .crcInit →
      a.instr ≠ some .softReset → (∀ b, a.instr ≠ some (.crcByte b)) →
      t.fcb.matched = s.fcb.matched ∧ t.fcb.checked = s.fcb.checked)) ∧
  (∀ S : Fcb, (regRead 0x3#4 S).getLsbD 0 = S.matched ∧ (regRead 0x3#4 S).getLsbD 1 = S.checked)

/-- R64: `CRC_INIT` and then the bytes, with classifier, control, read and illegal actions between them, leave `crc16` of the
bytes in the CRC registers. -/
def Obligations.CrcRunComputesCrc16 : Prop :=
  ∀ (s : State) (acts : List HostAction) (buf : List Byte) (off len : Nat),
    s.pending = actionOf .crcInit :: acts →
    (∀ a ∈ acts, a.crcFeed.isSome = true ∨ a.leavesCrc = true) →
    off + len ≤ buf.length → acts.filterMap HostAction.crcFeed = (buf.drop off).take len →
    ∃ t, runPending s = .next t ∧ t.pending = [] ∧
      crc16 buf off len = some (t.fcb.crc.extractLsb' 0 8, t.fcb.crc.extractLsb' 8 8) ∧
      crc16 buf off len = some ((regRead 0x1#4 t.fcb).extractLsb' 0 8, (regRead 0x2#4 t.fcb).extractLsb' 0 8)

/-- The pseudo-instruction `FRAME_CHECK` accepts a frame exactly when its last two bytes are the CRC of the bytes before
them, low byte first (R58, R66). -/
def Obligations.FrameCheckAcceptsExactlyTheCrc : Prop :=
  ∀ (s : State) (body : List Byte) (lo hi : Byte),
    ∃ is t, frameCheck (body ++ [lo, hi]) = some is ∧ execAll is s = .next t ∧ t.fcb.checked = true ∧
      (t.fcb.matched = true ↔ crc16 (body ++ [lo, hi]) 0 body.length = some (lo, hi))

/-- A frame that passes `FRAME_CHECK` no longer passes when any one of its bytes is changed, in the body or in the trailing
pair (the source's property that a corrupted frame yields `CrcMismatch`; from R59 and R66). -/
def Obligations.OneCorruptedByteIsDetected : Prop :=
  ∀ (s t : State) (frame : List Byte) (is : List Instr) (k : Nat) (b : Byte), frameCheck frame = some is →
    execAll is s = .next t → t.fcb.matched = true → k < frame.length → frame[k]? ≠ some b →
    ∃ is' t', frameCheck (frame.set k b) = some is' ∧ execAll is' s = .next t' ∧
      t'.fcb.checked = true ∧ t'.fcb.matched = false

/-- The table-driven update gives `crc_step8` for every CRC value and byte (R67). -/
def Obligations.TableRealisationAgrees : Prop :=
  ∀ (c : Half) (d : Byte), (c >>> 8) ^^^ crcStep8 0x0000#16 ((c ^^^ d.setWidth 16).setWidth 8) = crcStep8 c d

/-- `crc_step8` loses nothing: for a fixed byte distinct CRC values stay distinct, and for a fixed CRC value distinct bytes
give distinct results (from R59). -/
def Obligations.CrcStepIsInjective : Prop :=
  (∀ (c c' : Half) (d : Byte), crcStep8 c d = crcStep8 c' d → c = c') ∧
  (∀ (c : Half) (d d' : Byte), crcStep8 c d = crcStep8 c d' → d = d')

/-- A byte sequence with its own CRC appended, low byte first, has CRC 0 (from R59 and R36; the spec lists the general law as
general knowledge, G4). -/
def Obligations.ResidueIsZero : Prop :=
  ∀ bytes : List Byte,
    crcOf (bytes ++ [(crcOf bytes).extractLsb' 0 8, (crcOf bytes).extractLsb' 8 8]) = 0x0000#16

/-- No 3-byte frame of function code 0x07 or 0x08 passes the check, whatever its bytes (R66; 93_implementation_defined.md
I5, 95_test_vectors.md V14). -/
def Obligations.Fixed3FramesNeverPass : Prop :=
  ∀ (s : State) (u fc x : Byte), fc = 0x07#8 ∨ fc = 0x08#8 →
    ∃ is t, frameCheck [u, fc, x] = some is ∧ execAll is s = .next t ∧ t.fcb.checked = true ∧ t.fcb.matched = false

/-! ## The classifier unit (41_classifier.md) -/

/-- R70: `CLS_START fc`. -/
def Obligations.ClsStartLatches : Prop :=
  (∀ fc : Byte, encode (.clsStart fc) = .cmd (0x1000#16 ++ fc)) ∧
  (∀ (s : State) (fc : Byte), ∃ t, exec (.clsStart fc) s = .next t ∧
    t.fcb = { s.fcb with
      fc := fc, cls := rom fc, cnt := 0#16, hbc := 0#2, need := need0 (rom fc),
      phase := if 0 < (need0 (rom fc)).toNat then .waitHdr else .done,
      total := if 0 < (need0 (rom fc)).toNat then 0#17 else BitVec.ofNat 17 (frameLen (rom fc) 0),
      malformed := if 0 < (need0 (rom fc)).toNat then false else decide (rom fc = .unknown) }) ∧
  (∀ hi fc : Byte, hi ≠ 0#8 → performedAsIllegal (0x10#8 ++ hi ++ fc)) ∧
  (∀ s : State, ∃ t, exec (.clsStart 0x00#8) s = .next t ∧ t.fcb.total = 0#17 ∧ t.fcb.malformed = true) ∧
  (∀ (s : State) (fc : Byte), fc = 0x80#8 ∨ fc = 0xFF#8 →
    ∃ t, exec (.clsStart fc) s = .next t ∧ t.fcb.cls = .exception ∧ t.fcb.total = 5#17) ∧
  (∀ s : State, ∃ t, exec (.clsStart 0x07#8) s = .next t ∧ t.fcb.total = 3#17) ∧
  (∀ c n, need0 c = 0#2 → frameLen c n = frameLen c 0) ∧
  (∀ s : State, ∃ t, exec (.clsStart 0x06#8) s = .next t ∧
    t.fcb.phase = .done ∧ t.fcb.cls = .fixed8 ∧ t.fcb.total = 8#17 ∧ t.fcb.hbc = 0#2) ∧
  (∀ s : State, ∃ t, exec (.clsStart 0x03#8) s = .next t ∧
    t.fcb.phase = .waitHdr ∧ t.fcb.need = 1#2 ∧ t.fcb.total = 0#17)

/-- `CLS_HDR b` (R71). The WAIT_HDR clause covers every state: where R31's invariants hold its two-bit sums are R71's own, and
their wrap at `need` 0 and `hbc` 3, which no run reaches, is the model's choice (DESIGN CHOICE, notes/assumptions/7.md). -/
def Obligations.ClsHdrTakesAByte : Prop :=
  (∀ b : Byte, encode (.clsHdr b) = .cmd (0x1100#16 ++ b)) ∧
  (∀ (s : State) (b : Byte), s.fcb.phase ≠ .waitHdr →
    ∃ t, exec (.clsHdr b) s = .next t ∧ t.fcb = { s.fcb with errSeq := true }) ∧
  (∀ (s : State) (b : Byte), s.fcb.phase = .waitHdr →
    ∃ t, exec (.clsHdr b) s = .next t ∧
      t.fcb = { s.fcb with
        cnt := (s.fcb.cnt <<< 8) ||| b.setWidth 16, hbc := s.fcb.hbc + 1#2, need := s.fcb.need - 1#2,
        total := if s.fcb.need - 1#2 = 0#2
          then BitVec.ofNat 17 (frameLen s.fcb.cls ((s.fcb.cnt <<< 8) ||| b.setWidth 16).toNat) else s.fcb.total,
        phase := if s.fcb.need - 1#2 = 0#2 then .done else .waitHdr }) ∧
  (∀ hi b : Byte, hi ≠ 0#8 → performedAsIllegal (0x11#8 ++ hi ++ b)) ∧
  (∀ (s : State) (b : Byte), ∃ t, execAll [.clsStart 0x03#8, .clsHdr b] s = .next t ∧ t.fcb.phase = .done ∧
    t.fcb.cnt.toNat = b.toNat ∧ t.fcb.hbc = 1#2 ∧ t.fcb.total.toNat = b.toNat + 5) ∧
  (∀ (s : State) (b : Byte), ∃ t, execAll [.clsStart 0x18#8, .clsHdr b] s = .next t ∧ t.fcb.phase = .waitHdr ∧
    t.fcb.need = 1#2 ∧ t.fcb.hbc = 1#2 ∧ t.fcb.cnt.toNat = b.toNat ∧ t.fcb.total = 0#17) ∧
  (∀ (s : State) (b : Byte), ∃ t u, execAll [.clsStart 0x18#8, .clsHdr 0xFF#8, .clsHdr 0xFF#8] s = .next t ∧
    t.fcb.cnt = 0xFFFF#16 ∧ t.fcb.total = 65541#17 ∧ exec (.clsHdr b) t = .next u ∧ u.fcb.errSeq = true ∧
    u.fcb.total = t.fcb.total) ∧
  (∀ (S : Fcb) (b : Byte), S.Inv → S.CountInv → S.phase = .waitHdr →
    ((S.cnt <<< 8) ||| b.setWidth 16).toNat = S.cnt.toNat * 256 + b.toNat)

/-- R72: `CLS_CLEAR`. -/
def Obligations.ClsClearReturnsToIdle : Prop :=
  encode .clsClear = .cmd 0x120000#24 ∧
  (∀ s : State, ∃ t, exec .clsClear s = .next t ∧
    t.fcb = { s.fcb with phase := .idle, fc := 0x00#8, cls := .unknown, need := 0#2, hbc := 0#2, cnt := 0#16,
                         total := 0#17, malformed := false }) ∧
  (∀ imm : Half, imm ≠ 0#16 → performedAsIllegal (0x12#8 ++ imm)) ∧
  (∀ s t : State, exec .clsClear s = .next t → exec .clsClear t = .next t) ∧
  (∀ (s : State) (b : Byte), ∃ t, execAll [.clsClear, .clsHdr b] s = .next t ∧ t.fcb.errSeq = true) ∧
  (∀ s t : State, exec .clsClear s = .next t → t.fcb.sameClassifier State.reset.fcb)

/-- The entries of the count-carrying codes: latched, waiting for one byte (COUNT8) or two (COUNT16) (R56, R70; the rows as
instructions are the model's reading: notes/assumptions/4.md). -/
def Obligations.RomEntriesCounted : Prop :=
  ∀ s : State,
    (∀ p ∈ [(Instr.fc01, 0x01#8), (.fc02, 0x02#8), (.fc03, 0x03#8), (.fc04, 0x04#8), (.fc0C, 0x0C#8),
            (.fc11, 0x11#8), (.fc14, 0x14#8), (.fc15, 0x15#8), (.fc17, 0x17#8)],
      exec p.1 s = .next { s with fcb := { s.fcb with
        phase := .waitHdr, fc := p.2, cls := .count8, need := 1#2, hbc := 0#2, cnt := 0#16, total := 0#17,
        malformed := false } }) ∧
    exec .fc18 s = .next { s with fcb := { s.fcb with
        phase := .waitHdr, fc := 0x18#8, cls := .count16, need := 2#2, hbc := 0#2, cnt := 0#16, total := 0#17,
        malformed := false } }

/-- The entries of the fixed-length and exception codes: done at once with 8, 3 or 5 bytes (R56, R68, R70; the rows as
instructions are the model's reading: notes/assumptions/4.md). -/
def Obligations.RomEntriesFixed : Prop :=
  ∀ s : State,
    (∀ p ∈ [(Instr.fc05, 0x05#8), (.fc06, 0x06#8), (.fc0B, 0x0B#8), (.fc0F, 0x0F#8), (.fc10, 0x10#8),
            (.fc16, 0x16#8)],
      exec p.1 s = .next { s with fcb := { s.fcb with
        phase := .done, fc := p.2, cls := .fixed8, need := 0#2, hbc := 0#2, cnt := 0#16, total := 8#17,
        malformed := false } }) ∧
    (∀ p ∈ [(Instr.fc07, 0x07#8), (.fc08, 0x08#8)],
      exec p.1 s = .next { s with fcb := { s.fcb with
        phase := .done, fc := p.2, cls := .fixed3, need := 0#2, hbc := 0#2, cnt := 0#16, total := 3#17,
        malformed := false } }) ∧
    (∀ fc : Byte, 0x80 ≤ fc.toNat →
      exec (.fc80FF fc) s = .next { s with fcb := { s.fcb with
        phase := .done, fc := fc, cls := .exception, need := 0#2, hbc := 0#2, cnt := 0#16, total := 5#17,
        malformed := false } })

/-- The entries of the codes no row of the source names: done at once with total 0 and MALFORMED (R56, R68, R70; the rows as
instructions are the model's reading: notes/assumptions/4.md). -/
def Obligations.RomEntriesUnknown : Prop :=
  ∀ s : State,
    (∀ p ∈ [(Instr.fc00, 0x00#8), (.fc09, 0x09#8), (.fc0A, 0x0A#8), (.fc0D, 0x0D#8), (.fc0E, 0x0E#8),
            (.fc12, 0x12#8), (.fc13, 0x13#8), (.fc19, 0x19#8)],
      exec p.1 s = .next { s with fcb := { s.fcb with
        phase := .done, fc := p.2, cls := .unknown, need := 0#2, hbc := 0#2, cnt := 0#16, total := 0#17,
        malformed := true } }) ∧
    (∀ (fc : Byte) (i : Instr),
      (i = .fc1A1B fc ∧ 0x1A ≤ fc.toNat ∧ fc.toNat ≤ 0x1B) ∨ (i = .fc1C1F fc ∧ 0x1C ≤ fc.toNat ∧ fc.toNat ≤ 0x1F) ∨
      (i = .fc203F fc ∧ 0x20 ≤ fc.toNat ∧ fc.toNat ≤ 0x3F) ∨ (i = .fc407F fc ∧ 0x40 ≤ fc.toNat ∧ fc.toNat ≤ 0x7F) →
      exec i s = .next { s with fcb := { s.fcb with
        phase := .done, fc := fc, cls := .unknown, need := 0#2, hbc := 0#2, cnt := 0#16, total := 0#17,
        malformed := true } })

/-- Every function code selects exactly one ROM entry, and `CLS_START` of the code does what that entry says (R56, R70). -/
def Obligations.ClsStartIsItsRomEntry : Prop :=
  ∀ fc : Byte,
    (romRows.filter fun r => fc &&& r.mask == r.pattern).length = 1 ∧
    ∃ i, decodeRom fc = some i ∧ i.wellFormed = true ∧ ∀ s : State, exec (.clsStart fc) s = exec i s

/-- The classifier commands and the ROM entries leave the CRC unit and ERR_ILL unchanged, and ERR_SEQ too unless a header
byte comes out of phase; a header byte leaves the function code, its class and MALFORMED (R70 to R72, R2). -/
def Obligations.ClassifierCommandsFrame : Prop :=
  ∀ (i : Instr) (s t : State),
    (i = .clsClear ∨ (∃ fc, i = .clsStart fc) ∨ (∃ b, i = .clsHdr b) ∨ ∃ fc, decodeRom fc = some i) →
    exec i s = .next t →
    s.fcb.sameCrcUnit t.fcb ∧ t.fcb.errIll = s.fcb.errIll ∧ s.sameHost t ∧
    (t.fcb.errSeq = s.fcb.errSeq ∨ ((∃ b, i = .clsHdr b) ∧ s.fcb.phase ≠ .waitHdr)) ∧
    ((∃ b, i = .clsHdr b) → t.fcb.fc = s.fcb.fc ∧ t.fcb.cls = s.fcb.cls ∧ t.fcb.malformed = s.fcb.malformed)

/-- Which actions write `phase`, `fc`, `cls` and `malformed`, and what they write (R17, R18, R19, R24). The clause for a header
byte covers every WAIT_HDR state: where R31's invariants hold it is those rules' own, and that `phase` stays WAIT_HDR at
`need` 0, which no run reaches, is the model's choice (DESIGN CHOICE, notes/assumptions/7.md). -/
def Obligations.ClassifierResultFields : Prop :=
  ∀ (s t : State) (a : HostAction) (rest : List HostAction), s.pending = a :: rest → step s = .next t →
    (∀ fc, a.instr = some (.clsStart fc) →
      t.fcb.phase = (if rom fc = .count8 ∨ rom fc = .count16 then .waitHdr else .done) ∧ t.fcb.fc = fc ∧
      t.fcb.cls = rom fc ∧ (t.fcb.malformed = true ↔ rom fc = .unknown) ∧
      (rom fc = .unknown → t.fcb.total = 0#17)) ∧
    (∀ b, a.instr = some (.clsHdr b) → s.fcb.phase = .waitHdr →
      t.fcb.phase = (if s.fcb.need = 1#2 then .done else .waitHdr) ∧ t.fcb.fc = s.fcb.fc ∧
      t.fcb.cls = s.fcb.cls ∧ t.fcb.malformed = s.fcb.malformed) ∧
    (a = .reset ∨ a.instr = some .clsClear ∨ a.instr = some .softReset →
      t.fcb.phase = .idle ∧ t.fcb.fc = 0x00#8 ∧ t.fcb.cls = .unknown ∧ t.fcb.malformed = false) ∧
    (a ≠ .reset → a.instr ≠ some .clsClear → a.instr ≠ some .softReset → (∀ fc, a.instr ≠ some (.clsStart fc)) →
      ((∀ b, a.instr ≠ some (.clsHdr b)) ∨ s.fcb.phase ≠ .waitHdr) →
      t.fcb.phase = s.fcb.phase ∧ t.fcb.fc = s.fcb.fc ∧ t.fcb.cls = s.fcb.cls ∧
      t.fcb.malformed = s.fcb.malformed)

/-- Which actions write `need`, `hbc` and `cnt`, and what they write; `phase = 1` exactly when `need > 0`, `need` is never 3, and
in DONE `hbc` is the class's headerBytesConsumed (R20, R21, R22). The clause for a header byte covers every WAIT_HDR state:
where R31's invariants hold its two-bit sums are those rules' own, and their wrap at `need` 0 and `hbc` 3, which no run
reaches, is the model's choice (DESIGN CHOICE, notes/assumptions/7.md). -/
def Obligations.HeaderCounters : Prop :=
  (∀ (s t : State) (a : HostAction) (rest : List HostAction), s.pending = a :: rest → step s = .next t →
    (∀ fc, a.instr = some (.clsStart fc) →
      t.fcb.need = (if rom fc = .count8 then 1#2 else if rom fc = .count16 then 2#2 else 0#2) ∧
      t.fcb.hbc = 0#2 ∧ t.fcb.cnt = 0#16) ∧
    (∀ b, a.instr = some (.clsHdr b) → s.fcb.phase = .waitHdr →
      t.fcb.need = s.fcb.need - 1#2 ∧ t.fcb.hbc = s.fcb.hbc + 1#2 ∧
      t.fcb.cnt = (s.fcb.cnt <<< 8) ||| b.setWidth 16) ∧
    (a = .reset ∨ a.instr = some .clsClear ∨ a.instr = some .softReset →
      t.fcb.need = 0#2 ∧ t.fcb.hbc = 0#2 ∧ t.fcb.cnt = 0#16) ∧
    (a ≠ .reset → a.instr ≠ some .clsClear → a.instr ≠ some .softReset → (∀ fc, a.instr ≠ some (.clsStart fc)) →
      ((∀ b, a.instr ≠ some (.clsHdr b)) ∨ s.fcb.phase ≠ .waitHdr) →
      t.fcb.need = s.fcb.need ∧ t.fcb.hbc = s.fcb.hbc ∧ t.fcb.cnt = s.fcb.cnt)) ∧
  (∀ S : Fcb, S.Inv → S.need ≠ 3#2 ∧ (S.phase = .waitHdr ↔ 0 < S.need.toNat) ∧
    (S.phase = .done → S.hbc = (if S.cls = .count8 then 1#2 else if S.cls = .count16 then 2#2 else 0#2))) ∧
  (∀ (s : State) (b : Byte), ∃ t, execAll [.clsStart 0x03#8, .clsHdr b] s = .next t ∧
    t.fcb.cnt = b.setWidth 16) ∧
  (∀ (s : State) (first second : Byte), ∃ t,
    execAll [.clsStart 0x18#8, .clsHdr first, .clsHdr second] s = .next t ∧ t.fcb.cnt = first ++ second)

/-- R75: `CLS_START fc` and the header bytes the class asks for, with other units' actions between them, end in DONE with the
total and headerBytesConsumed of `classify`, and set no error flag; fewer header bytes leave it waiting with total 0. -/
def Obligations.ClassificationRunComputesClassify : Prop :=
  (∀ (s : State) (fc : Byte) (peek : Nat → Byte) (headers : List (List HostAction × Byte)) (after : List HostAction),
    s.pending = actionOf (.clsStart fc) :: (headerActions headers ++ after) →
    (∀ p ∈ headers, ∀ a ∈ p.1, a.leavesClassifier = true) → (∀ a ∈ after, a.leavesClassifier = true) →
    headers.map Prod.snd = (List.range headers.length).map (fun k => peek (k + 1)) →
    (headers.length = headerBytes (rom fc) →
      ∃ t, runPending s = .next t ∧ t.fcb.phase = .done ∧
        (t.fcb.total.toNat, t.fcb.hbc.toNat) = classify fc peek ∧
        (t.fcb.errSeq = true → s.fcb.errSeq = true) ∧
        ((∀ a ∈ s.pending, a.legal = true) → t.fcb.errIll = true → s.fcb.errIll = true)) ∧
    (headers.length < headerBytes (rom fc) →
      ∃ t, runPending s = .next t ∧ t.fcb.phase = .waitHdr ∧ t.fcb.total = 0#17)) ∧
  (∀ fc : Byte, headerBytes (rom fc) ≤ 2)

/-- R73, R74: what CLS_REMAIN and CLS_CRCLEN give, class by class, in every state that meets the invariants; 0 outside DONE
and for UNKNOWN. -/
def Obligations.RemainAndCrcLength : Prop :=
  ∀ S : Fcb, S.Inv →
    (S.phase = .done → S.malformed = false →
      S.remain.toNat + 2 + S.hbc.toNat = S.total.toNat ∧ S.crclen.toNat + 2 = S.total.toNat ∧
      (S.cls = .count8 → S.remain.toNat = S.cnt.toNat + 2 ∧ S.crclen.toNat = S.cnt.toNat + 3) ∧
      (S.cls = .count16 → S.remain.toNat = S.cnt.toNat + 2 ∧ S.crclen.toNat = S.cnt.toNat + 4) ∧
      (S.cls = .fixed8 → S.remain.toNat = 6 ∧ S.crclen.toNat = 6) ∧
      (S.cls = .fixed3 → S.remain.toNat = 1 ∧ S.crclen.toNat = 1) ∧
      (S.cls = .exception → S.remain.toNat = 3 ∧ S.crclen.toNat = 3)) ∧
    (S.phase ≠ .done ∨ S.malformed = true → S.remain = 0#17 ∧ S.crclen = 0#17) ∧
    regRead 0x8#4 S = S.remain.setWidth 32 ∧ regRead 0x9#4 S = S.crclen.setWidth 32

/-- R23: `total` is the length rule's value in DONE and 0 before, and 17 bits hold it exactly: the largest is 65541. -/
def Obligations.TotalIsExact : Prop :=
  (∀ S : Fcb, S.Inv → (S.phase = .done → S.total.toNat = frameLen S.cls S.cnt.toNat) ∧
    (S.phase ≠ .done → S.total = 0#17) ∧ S.total.toNat ≤ 65541) ∧
  (∀ (c : FrameClass) (n : Half), (BitVec.ofNat 17 (frameLen c n.toNat)).toNat = frameLen c n.toNat) ∧
  frameLen .count16 65535 = 65541

/-- R76: a response is a slave exception response exactly when bit 7 of the function code is set, and CLS_INFO.CLASS reads 3
then. -/
def Obligations.SlaveExceptionIsBit7 : Prop :=
  ∀ (s : State) (fc : Byte), (rom fc = .exception ↔ fc.getLsbD 7 = true) ∧
    ∃ t, exec (.clsStart fc) s = .next t ∧ ((regRead 0x5#4 t.fcb).extractLsb' 0 3 = 3#3 ↔ fc.getLsbD 7 = true)

/-! ## Invariants and whole-machine rules -/

/-- The invariants hold after reset (R30, R31). -/
def Obligations.ResetMeetsInvariants : Prop := State.reset.fcb.Inv ∧ State.reset.fcb.CountInv

/-- Every step, from every state that meets the invariants of R31 and whatever the host does next, ends in one that meets
them. -/
def Obligations.StepKeepsInvariants : Prop :=
  ∀ s t : State, s.fcb.Inv → step s = .next t → t.fcb.Inv

/-- Every step keeps the count within the bytes taken, so the big-endian accumulation never loses a bit (R22, R71). -/
def Obligations.StepKeepsCountBound : Prop :=
  ∀ s t : State, s.fcb.Inv → s.fcb.CountInv → step s = .next t → t.fcb.CountInv

/-- R31: the invariants hold in every state reachable from reset by any sequence of host actions. -/
def Obligations.ReachableStatesMeetInvariants : Prop :=
  ∀ acts : List HostAction, ∃ t, runPending { State.reset with pending := acts } = .next t ∧ t.fcb.Inv

/-- R25, R26: ERR_SEQ is set by a header byte out of phase and by nothing else, ERR_ILL by an illegal word and by nothing
else; only ERR_CLEAR, SOFT_RESET and reset clear them; they are read at STATUS[5] and STATUS[6]. -/
def Obligations.StickyErrorFlags : Prop :=
  (∀ (s t : State) (a : HostAction) (rest : List HostAction), s.pending = a :: rest → step s = .next t →
    ((∃ b, a.instr = some (.clsHdr b)) ∧ s.fcb.phase ≠ .waitHdr → t.fcb.errSeq = true) ∧
    ((∃ w, a = .command w ∧ decode w = none) → t.fcb.errIll = true) ∧
    (a = .reset ∨ a.instr = some .errClear ∨ a.instr = some .softReset →
      t.fcb.errSeq = false ∧ t.fcb.errIll = false) ∧
    (¬ ((∃ b, a.instr = some (.clsHdr b)) ∧ s.fcb.phase ≠ .waitHdr) → t.fcb.errSeq = true →
      s.fcb.errSeq = true) ∧
    (¬ (∃ w, a = .command w ∧ decode w = none) → t.fcb.errIll = true → s.fcb.errIll = true) ∧
    (a ≠ .reset → a.instr ≠ some .errClear → a.instr ≠ some .softReset →
      (s.fcb.errSeq = true → t.fcb.errSeq = true) ∧ (s.fcb.errIll = true → t.fcb.errIll = true))) ∧
  (∀ S : Fcb, (regRead 0x3#4 S).getLsbD 5 = S.errSeq ∧ (regRead 0x3#4 S).getLsbD 6 = S.errIll)

/-- One command raises at most one condition, and the raised one shows in STATUS with what R83 says is recorded; legality
comes first, so a `CLS_HDR` opcode with a non-zero high byte raises ERR_ILL and not ERR_SEQ (R83, R87). -/
def Obligations.AtMostOneCondition : Prop :=
  (∀ (w : CmdWord) (S : Fcb) (c d : Condition),
    c.raisedBy w S = true → d.raisedBy w S = true → c = d) ∧
  (∀ (s : State) (w : CmdWord) (rest : List HostAction) (c : Condition), s.pending = .command w :: rest →
    c.raisedBy w s.fcb = true → ∃ t, step s = .next t ∧ c.reported t.fcb = true ∧
      (c = .malformedFrame → t.fcb.fc = w.extractLsb' 0 8 ∧ t.fcb.total = 0#17) ∧
      (c = .crcMismatch → t.fcb.crc = s.fcb.crc)) ∧
  (∀ (S : Fcb) (hi b : Byte), hi ≠ 0#8 → Condition.illegalWord.raisedBy (0x11#8 ++ hi ++ b) S = true)

/-- `NOP`, `CRC_INIT`, `CLS_CLEAR`, `ERR_CLEAR` and `SOFT_RESET` are idempotent; `CRC_BYTE`, `CRC_CHECK`, and `CLS_START` with a
variable-length code followed by `CLS_HDR`, are not in general: a second `CRC_BYTE` or `CLS_HDR` with the same byte, and a
second `CRC_CHECK` or pair with another operand, can leave another state (R42; that its "in general" is over the operands, since
R63, R70 and R71 fix the effect of equal ones, is the model's reading: DEDUCED, notes/assumptions/11.md). -/
def Obligations.IdempotentCommands : Prop :=
  (∀ i ∈ [Instr.nop, .crcInit, .clsClear, .errClear, .softReset], ∀ s : State,
    ∃ t, exec i s = .next t ∧ exec i t = .next t) ∧
  (∃ (s t : State) (b : Byte), exec (.crcByte b) s = .next t ∧ exec (.crcByte b) t ≠ .next t) ∧
  (∃ (s t : State) (b : Byte), exec (.clsHdr b) s = .next t ∧ exec (.clsHdr b) t ≠ .next t) ∧
  (∀ (s : State) (b : Byte), ∃ t u, execAll [.clsStart 0x18#8, .clsHdr b] s = .next t ∧
    exec (.clsHdr b) t = .next u ∧ u.fcb.phase ≠ t.fcb.phase) ∧
  (∀ (s : State) (fc b b' : Byte), rom fc = .count8 ∨ rom fc = .count16 → b ≠ b' →
    ∃ t u, execAll [.clsStart fc, .clsHdr b] s = .next t ∧ execAll [.clsStart fc, .clsHdr b'] t = .next u ∧
      u.fcb.cnt ≠ t.fcb.cnt) ∧
  (∃ (s t u : State) (lo hi lo' hi' : Byte), exec (.crcCheck lo hi) s = .next t ∧
    exec (.crcCheck lo' hi') t = .next u ∧ u.fcb.matched ≠ t.fcb.matched)

/-- Neither unit reads the other's state: if two machines agree on one unit and the host acts alike on both, they still agree
on it (R2, R103). -/
def Obligations.UnitsAreIndependent : Prop :=
  ∀ (s s' t t' : State) (a : HostAction) (rest rest' : List HostAction), s.pending = a :: rest →
    s'.pending = a :: rest' → step s = .next t → step s' = .next t' →
    (s.fcb.sameCrcUnit s'.fcb → t.fcb.sameCrcUnit t'.fcb) ∧
    (s.fcb.sameClassifier s'.fcb → t.fcb.sameClassifier t'.fcb)

/-- Only the order within each unit matters: two runs whose actions for one unit are the same, in the same order, leave that
unit the same, however the other actions are interleaved (R103). -/
def Obligations.InterleavingOfUnitsIsFree : Prop :=
  ∀ s s' : State,
    ∃ t t', runPending s = .next t ∧ runPending s' = .next t' ∧
      (s.fcb.sameCrcUnit s'.fcb →
        s.pending.filter (fun a => !a.leavesCrc) = s'.pending.filter (fun a => !a.leavesCrc) →
        t.fcb.sameCrcUnit t'.fcb) ∧
      (s.fcb.sameClassifier s'.fcb →
        s.pending.filter (fun a => !a.leavesClassifier) = s'.pending.filter (fun a => !a.leavesClassifier) →
        t.fcb.sameClassifier t'.fcb)

/-! ## Text (R57, R58) -/

/-- The text of every command assembles to it, in hexadecimal as listed, and the listing line of `CRC_BYTE 0x01` is R57's
(R57; lexical details: notes/assumptions/12.md). -/
def Obligations.AssemblingTheListedText : Prop :=
  (∀ (i : Instr) (text : List Char), commandText i = some text → assembleLine text = some [i]) ∧
  (∀ (i : Instr), (commandText i).isSome = true ↔ ∃ w, encode i = .cmd w) ∧
  listingLine (.crcByte 0x01#8) =
    some ['0', '2', '0', '0', '0', '1', ' ', ' ', 'C', 'R', 'C', '_', 'B', 'Y', 'T', 'E', ' ', '0', 'x', '0', '1']

/-- The expansions of the pseudo-instructions (R58). -/
def Obligations.PseudoInstructionExpansions : Prop :=
  (∀ bs : List Byte, expand .crcBlock bs = some (.crcInit :: bs.map .crcByte)) ∧
  (∀ (bs : List Byte) (lo hi : Byte),
    expand .frameCheck (bs ++ [lo, hi]) = some (.crcInit :: (bs.map .crcByte ++ [.crcCheck lo hi]))) ∧
  (∀ bh bl : Byte, expand .clsCount16 [bh, bl] = some [.clsHdr bh, .clsHdr bl]) ∧
  (∀ fc h1 h2 : Byte, expand .clsFrame [fc] = some [.clsStart fc] ∧
    expand .clsFrame [fc, h1] = some [.clsStart fc, .clsHdr h1] ∧
    expand .clsFrame [fc, h1, h2] = some [.clsStart fc, .clsHdr h1, .clsHdr h2])
end

