-- ==== Sys2Proof/Laws/PerInstr.lean ====
section
/-! SUPPORT. Per-instruction facts about the syntax. -/

namespace Sys2Proof.Laws

/-- A row of spec/opcode_table.json: its format, mask and match. -/
inductive TableRow where
  | cmd (mask pattern : CmdWord)
  | fcrom (mask pattern : Byte)

/-- A word fits a row when it has the row's format and `word & mask = match` (R51, R56). -/
def TableRow.fits : TableRow → TableWord → Bool
  | .cmd mask pattern, .cmd w => w &&& mask == pattern
  | .fcrom mask pattern, .fcrom fc => fc &&& mask == pattern
  | .cmd _ _, .fcrom _ => false
  | .fcrom _ _, .cmd _ => false

/-- The row of spec/opcode_table.json that an instruction stands for. -/
def tableRow : Instr → TableRow
  | .nop => .cmd 0xFFFFFF#24 0x000000#24
  | .crcInit => .cmd 0xFFFFFF#24 0x010000#24
  | .crcByte _ => .cmd 0xFFFF00#24 0x020000#24
  | .crcCheck _ _ => .cmd 0xFF0000#24 0x030000#24
  | .clsStart _ => .cmd 0xFFFF00#24 0x100000#24
  | .clsHdr _ => .cmd 0xFFFF00#24 0x110000#24
  | .clsClear => .cmd 0xFFFFFF#24 0x120000#24
  | .errClear => .cmd 0xFFFFFF#24 0x300000#24
  | .softReset => .cmd 0xFFFFFF#24 0x3F0000#24
  | .fc00 => .fcrom 0xFF#8 0x00#8
  | .fc01 => .fcrom 0xFF#8 0x01#8
  | .fc02 => .fcrom 0xFF#8 0x02#8
  | .fc03 => .fcrom 0xFF#8 0x03#8
  | .fc04 => .fcrom 0xFF#8 0x04#8
  | .fc05 => .fcrom 0xFF#8 0x05#8
  | .fc06 => .fcrom 0xFF#8 0x06#8
  | .fc07 => .fcrom 0xFF#8 0x07#8
  | .fc08 => .fcrom 0xFF#8 0x08#8
  | .fc09 => .fcrom 0xFF#8 0x09#8
  | .fc0A => .fcrom 0xFF#8 0x0A#8
  | .fc0B => .fcrom 0xFF#8 0x0B#8
  | .fc0C => .fcrom 0xFF#8 0x0C#8
  | .fc0D => .fcrom 0xFF#8 0x0D#8
  | .fc0E => .fcrom 0xFF#8 0x0E#8
  | .fc0F => .fcrom 0xFF#8 0x0F#8
  | .fc10 => .fcrom 0xFF#8 0x10#8
  | .fc11 => .fcrom 0xFF#8 0x11#8
  | .fc12 => .fcrom 0xFF#8 0x12#8
  | .fc13 => .fcrom 0xFF#8 0x13#8
  | .fc14 => .fcrom 0xFF#8 0x14#8
  | .fc15 => .fcrom 0xFF#8 0x15#8
  | .fc16 => .fcrom 0xFF#8 0x16#8
  | .fc17 => .fcrom 0xFF#8 0x17#8
  | .fc18 => .fcrom 0xFF#8 0x18#8
  | .fc19 => .fcrom 0xFF#8 0x19#8
  | .fc1A1B _ => .fcrom 0xFE#8 0x1A#8
  | .fc1C1F _ => .fcrom 0xFC#8 0x1C#8
  | .fc203F _ => .fcrom 0xE0#8 0x20#8
  | .fc407F _ => .fcrom 0xC0#8 0x40#8
  | .fc80FF _ => .fcrom 0x80#8 0x80#8

/-- The high byte of a packed word survives the mask `0xFF0000`, and nothing else does. -/
theorem pack_and_op (op hi b : Byte) : CmdWord.pack op hi b &&& 0xFF0000#24 = CmdWord.pack op 0#8 0#8 := by
  have h : (0xFF0000#24) = CmdWord.pack 0xFF#8 0#8 0#8 := by decide
  rw [h]; unfold CmdWord.pack
  rw [BitVec.and_append, BitVec.and_append]
  have all : op &&& 255#8 = op := BitVec.and_allOnes (w := 8)
  simp [all]

/-- The two high bytes of a packed word survive the mask `0xFFFF00`. -/
theorem pack_and_high (op hi b : Byte) : CmdWord.pack op hi b &&& 0xFFFF00#24 = CmdWord.pack op hi 0#8 := by
  have h : (0xFFFF00#24) = CmdWord.pack 0xFF#8 0xFF#8 0#8 := by decide
  rw [h]; unfold CmdWord.pack
  rw [BitVec.and_append, BitVec.and_append]
  have all (x : Byte) : x &&& 255#8 = x := BitVec.and_allOnes (w := 8)
  simp [all]

/-- The encoding of a well-formed instruction fits its own row of the opcode table. -/
def EncodeInRow.Statement (i : Instr) : Prop := i.wellFormed = true → (tableRow i).fits (encode i) = true

theorem EncodeInRow.nop : EncodeInRow.Statement .nop := by intro _; decide
theorem EncodeInRow.crcInit : EncodeInRow.Statement .crcInit := by intro _; decide
theorem EncodeInRow.crcByte (b : Byte) : EncodeInRow.Statement (.crcByte b) := by
  intro _; simp [tableRow, TableRow.fits, encode, pack_and_high]; rfl
theorem EncodeInRow.crcCheck (lo hi : Byte) : EncodeInRow.Statement (.crcCheck lo hi) := by
  intro _; simp [tableRow, TableRow.fits, encode, pack_and_op]; rfl
theorem EncodeInRow.clsStart (fc : Byte) : EncodeInRow.Statement (.clsStart fc) := by
  intro _; simp [tableRow, TableRow.fits, encode, pack_and_high]; rfl
theorem EncodeInRow.clsHdr (b : Byte) : EncodeInRow.Statement (.clsHdr b) := by
  intro _; simp [tableRow, TableRow.fits, encode, pack_and_high]; rfl
theorem EncodeInRow.clsClear : EncodeInRow.Statement .clsClear := by intro _; decide
theorem EncodeInRow.errClear : EncodeInRow.Statement .errClear := by intro _; decide
theorem EncodeInRow.softReset : EncodeInRow.Statement .softReset := by intro _; decide
theorem EncodeInRow.fc00 : EncodeInRow.Statement .fc00 := by intro _; decide
theorem EncodeInRow.fc01 : EncodeInRow.Statement .fc01 := by intro _; decide
theorem EncodeInRow.fc02 : EncodeInRow.Statement .fc02 := by intro _; decide
theorem EncodeInRow.fc03 : EncodeInRow.Statement .fc03 := by intro _; decide
theorem EncodeInRow.fc04 : EncodeInRow.Statement .fc04 := by intro _; decide
theorem EncodeInRow.fc05 : EncodeInRow.Statement .fc05 := by intro _; decide
theorem EncodeInRow.fc06 : EncodeInRow.Statement .fc06 := by intro _; decide
theorem EncodeInRow.fc07 : EncodeInRow.Statement .fc07 := by intro _; decide
theorem EncodeInRow.fc08 : EncodeInRow.Statement .fc08 := by intro _; decide
theorem EncodeInRow.fc09 : EncodeInRow.Statement .fc09 := by intro _; decide
theorem EncodeInRow.fc0A : EncodeInRow.Statement .fc0A := by intro _; decide
theorem EncodeInRow.fc0B : EncodeInRow.Statement .fc0B := by intro _; decide
theorem EncodeInRow.fc0C : EncodeInRow.Statement .fc0C := by intro _; decide
theorem EncodeInRow.fc0D : EncodeInRow.Statement .fc0D := by intro _; decide
theorem EncodeInRow.fc0E : EncodeInRow.Statement .fc0E := by intro _; decide
theorem EncodeInRow.fc0F : EncodeInRow.Statement .fc0F := by intro _; decide
theorem EncodeInRow.fc10 : EncodeInRow.Statement .fc10 := by intro _; decide
theorem EncodeInRow.fc11 : EncodeInRow.Statement .fc11 := by intro _; decide
theorem EncodeInRow.fc12 : EncodeInRow.Statement .fc12 := by intro _; decide
theorem EncodeInRow.fc13 : EncodeInRow.Statement .fc13 := by intro _; decide
theorem EncodeInRow.fc14 : EncodeInRow.Statement .fc14 := by intro _; decide
theorem EncodeInRow.fc15 : EncodeInRow.Statement .fc15 := by intro _; decide
theorem EncodeInRow.fc16 : EncodeInRow.Statement .fc16 := by intro _; decide
theorem EncodeInRow.fc17 : EncodeInRow.Statement .fc17 := by intro _; decide
theorem EncodeInRow.fc18 : EncodeInRow.Statement .fc18 := by intro _; decide
theorem EncodeInRow.fc19 : EncodeInRow.Statement .fc19 := by intro _; decide
theorem EncodeInRow.fc1A1B (fc : Byte) : EncodeInRow.Statement (.fc1A1B fc) := id
theorem EncodeInRow.fc1C1F (fc : Byte) : EncodeInRow.Statement (.fc1C1F fc) := id
theorem EncodeInRow.fc203F (fc : Byte) : EncodeInRow.Statement (.fc203F fc) := id
theorem EncodeInRow.fc407F (fc : Byte) : EncodeInRow.Statement (.fc407F fc) := id
theorem EncodeInRow.fc80FF (fc : Byte) : EncodeInRow.Statement (.fc80FF fc) := id

end Sys2Proof.Laws
end

