-- ==== Sys2Proof/Laws/Decode.lean ====
section
/-! SUPPORT. The decoder and the fields of a command word: what later proofs about encodings cite. -/

namespace Sys2Proof

@[simp] theorem CmdWord.pack_op (op hi b : Byte) : (CmdWord.pack op hi b).op = op := by
  unfold CmdWord.pack CmdWord.op
  ext i h
  simp only [BitVec.getElem_extractLsb', BitVec.getLsbD_append, show ¬ 16 + i < 8 by omega,
    show ¬ 16 + i - 8 < 8 by omega, show 16 + i - 8 - 8 = i by omega, if_false]
  exact BitVec.getLsbD_eq_getElem h

@[simp] theorem CmdWord.pack_hi (op hi b : Byte) : (CmdWord.pack op hi b).hi = hi := by
  unfold CmdWord.pack CmdWord.hi
  ext i h
  simp only [BitVec.getElem_extractLsb', BitVec.getLsbD_append, show ¬ 8 + i < 8 by omega,
    show 8 + i - 8 = i by omega, h, if_false, if_true]
  exact BitVec.getLsbD_eq_getElem h

@[simp] theorem CmdWord.pack_lo (op hi b : Byte) : (CmdWord.pack op hi b).lo = b := by
  unfold CmdWord.pack CmdWord.lo
  ext i h
  simp only [BitVec.getElem_extractLsb', BitVec.getLsbD_append, Nat.zero_add, h, if_true]
  exact BitVec.getLsbD_eq_getElem h

/-- A command word is its three fields (R49). -/
theorem CmdWord.pack_fields (w : CmdWord) : CmdWord.pack w.op w.hi w.lo = w := by
  unfold CmdWord.pack CmdWord.op CmdWord.hi CmdWord.lo
  ext i h
  simp only [BitVec.getElem_append, BitVec.getElem_extractLsb']
  by_cases h8 : i < 8
  · simp only [h8, dif_pos, Nat.zero_add]
    exact BitVec.getLsbD_eq_getElem h
  · by_cases h16 : i - 8 < 8
    · simp only [h8, h16, dif_pos, dif_neg, not_false_iff, show 8 + (i - 8) = i by omega]
      exact BitVec.getLsbD_eq_getElem h
    · simp only [h8, h16, dif_neg, not_false_iff, show 16 + (i - 8 - 8) = i by omega]
      exact BitVec.getLsbD_eq_getElem h

/-- Two packed words are equal when their fields are. -/
theorem CmdWord.pack_inj {op hi b op' hi' b' : Byte} :
    CmdWord.pack op hi b = CmdWord.pack op' hi' b' ↔ op = op' ∧ hi = hi' ∧ b = b' := by
  constructor
  · intro h
    exact ⟨by simpa using congrArg CmdWord.op h, by simpa using congrArg CmdWord.hi h,
      by simpa using congrArg CmdWord.lo h⟩
  · rintro ⟨rfl, rfl, rfl⟩
    rfl

/-- Trying the first of a list of rows (R51). -/
theorem find_cmdRow_cons (w : CmdWord) (r : CmdRow) (rs : List CmdRow) :
    ((r :: rs).find? fun r => w &&& r.mask == r.pattern).map (fun r => r.build w) =
      if w &&& r.mask = r.pattern then some (r.build w)
      else (rs.find? fun r => w &&& r.mask == r.pattern).map fun r => r.build w := by
  rw [List.find?_cons]
  by_cases h : w &&& r.mask = r.pattern
  · rw [if_pos h, beq_iff_eq.mpr h]; rfl
  · rw [if_neg h, beq_eq_false_iff_ne.mpr h]

/-- The decoder as a chain of the nine rows (R51). -/
theorem decode_rows (w : CmdWord) : decode w =
    if w &&& 0xFFFFFF#24 = 0x000000#24 then some .nop else
    if w &&& 0xFFFFFF#24 = 0x010000#24 then some .crcInit else
    if w &&& 0xFFFF00#24 = 0x020000#24 then some (.crcByte w.lo) else
    if w &&& 0xFF0000#24 = 0x030000#24 then some (.crcCheck w.lo w.hi) else
    if w &&& 0xFFFF00#24 = 0x100000#24 then some (.clsStart w.lo) else
    if w &&& 0xFFFF00#24 = 0x110000#24 then some (.clsHdr w.lo) else
    if w &&& 0xFFFFFF#24 = 0x120000#24 then some .clsClear else
    if w &&& 0xFFFFFF#24 = 0x300000#24 then some .errClear else
    if w &&& 0xFFFFFF#24 = 0x3F0000#24 then some .softReset else none := by
  unfold decode cmdRows
  simp only [find_cmdRow_cons, List.find?_nil, Option.map_none]

/-- The decoder by fields (R54: it needs only the opcode and, for the must-be-zero check, the operand). -/
theorem decode_pack (op hi b : Byte) : decode (CmdWord.pack op hi b) =
    if op = 0x00#8 ∧ hi = 0#8 ∧ b = 0#8 then some .nop else
    if op = 0x01#8 ∧ hi = 0#8 ∧ b = 0#8 then some .crcInit else
    if op = 0x02#8 ∧ hi = 0#8 then some (.crcByte b) else
    if op = 0x03#8 then some (.crcCheck b hi) else
    if op = 0x10#8 ∧ hi = 0#8 then some (.clsStart b) else
    if op = 0x11#8 ∧ hi = 0#8 then some (.clsHdr b) else
    if op = 0x12#8 ∧ hi = 0#8 ∧ b = 0#8 then some .clsClear else
    if op = 0x30#8 ∧ hi = 0#8 ∧ b = 0#8 then some .errClear else
    if op = 0x3F#8 ∧ hi = 0#8 ∧ b = 0#8 then some .softReset else none := by
  have all (w : CmdWord) : w &&& 0xFFFFFF#24 = w := BitVec.and_allOnes (w := 24)
  have row0 : 0x000000#24 = CmdWord.pack 0x00#8 0#8 0#8 := rfl
  have row1 : 0x010000#24 = CmdWord.pack 0x01#8 0#8 0#8 := rfl
  have row2 : 0x020000#24 = CmdWord.pack 0x02#8 0#8 0#8 := rfl
  have row3 : 0x030000#24 = CmdWord.pack 0x03#8 0#8 0#8 := rfl
  have row10 : 0x100000#24 = CmdWord.pack 0x10#8 0#8 0#8 := rfl
  have row11 : 0x110000#24 = CmdWord.pack 0x11#8 0#8 0#8 := rfl
  have row12 : 0x120000#24 = CmdWord.pack 0x12#8 0#8 0#8 := rfl
  have row30 : 0x300000#24 = CmdWord.pack 0x30#8 0#8 0#8 := rfl
  have row3F : 0x3F0000#24 = CmdWord.pack 0x3F#8 0#8 0#8 := rfl
  rw [decode_rows, row0, row1, row2, row3, row10, row11, row12, row30, row3F]
  simp only [all, Laws.pack_and_op, Laws.pack_and_high, CmdWord.pack_hi, CmdWord.pack_lo, CmdWord.pack_inj, and_true]

end Sys2Proof
end

