-- ==== Sys2Proof/Laws/State.lean ====
section
/-! SUPPORT. One lemma per field per update of the block, and of the whole state: later proofs rewrite with these and never
unfold a record update. -/

namespace Sys2Proof.Machine

@[simp] theorem State.onBlock_fcb (s : State) (f : Fcb → Fcb) : (s.onBlock f).fcb = f s.fcb := rfl
@[simp] theorem State.onBlock_pending (s : State) (f : Fcb → Fcb) : (s.onBlock f).pending = s.pending := rfl
@[simp] theorem State.onBlock_reads (s : State) (f : Fcb → Fcb) : (s.onBlock f).reads = s.reads := rfl

@[simp] theorem Fcb.reset_crc : Fcb.reset.crc = Config.crcSeed := rfl
@[simp] theorem Fcb.reset_matched : Fcb.reset.matched = false := rfl
@[simp] theorem Fcb.reset_checked : Fcb.reset.checked = false := rfl
@[simp] theorem Fcb.reset_phase : Fcb.reset.phase = Phase.idle := rfl
@[simp] theorem Fcb.reset_fc : Fcb.reset.fc = 0x00#8 := rfl
@[simp] theorem Fcb.reset_cls : Fcb.reset.cls = FrameClass.unknown := rfl
@[simp] theorem Fcb.reset_need : Fcb.reset.need = 0#2 := rfl
@[simp] theorem Fcb.reset_hbc : Fcb.reset.hbc = 0#2 := rfl
@[simp] theorem Fcb.reset_cnt : Fcb.reset.cnt = 0x0000#16 := rfl
@[simp] theorem Fcb.reset_total : Fcb.reset.total = 0#17 := rfl
@[simp] theorem Fcb.reset_malformed : Fcb.reset.malformed = false := rfl
@[simp] theorem Fcb.reset_errSeq : Fcb.reset.errSeq = false := rfl
@[simp] theorem Fcb.reset_errIll : Fcb.reset.errIll = false := rfl

@[simp] theorem Fcb.loadCrc_crc (c : Half) (S : Fcb) : (S.loadCrc c).crc = c := rfl
@[simp] theorem Fcb.loadCrc_matched (c : Half) (S : Fcb) : (S.loadCrc c).matched = false := rfl
@[simp] theorem Fcb.loadCrc_checked (c : Half) (S : Fcb) : (S.loadCrc c).checked = false := rfl
@[simp] theorem Fcb.loadCrc_phase (c : Half) (S : Fcb) : (S.loadCrc c).phase = S.phase := rfl
@[simp] theorem Fcb.loadCrc_fc (c : Half) (S : Fcb) : (S.loadCrc c).fc = S.fc := rfl
@[simp] theorem Fcb.loadCrc_cls (c : Half) (S : Fcb) : (S.loadCrc c).cls = S.cls := rfl
@[simp] theorem Fcb.loadCrc_need (c : Half) (S : Fcb) : (S.loadCrc c).need = S.need := rfl
@[simp] theorem Fcb.loadCrc_hbc (c : Half) (S : Fcb) : (S.loadCrc c).hbc = S.hbc := rfl
@[simp] theorem Fcb.loadCrc_cnt (c : Half) (S : Fcb) : (S.loadCrc c).cnt = S.cnt := rfl
@[simp] theorem Fcb.loadCrc_total (c : Half) (S : Fcb) : (S.loadCrc c).total = S.total := rfl
@[simp] theorem Fcb.loadCrc_malformed (c : Half) (S : Fcb) : (S.loadCrc c).malformed = S.malformed := rfl
@[simp] theorem Fcb.loadCrc_errSeq (c : Half) (S : Fcb) : (S.loadCrc c).errSeq = S.errSeq := rfl
@[simp] theorem Fcb.loadCrc_errIll (c : Half) (S : Fcb) : (S.loadCrc c).errIll = S.errIll := rfl

@[simp] theorem Fcb.checkCrc_crc (p : Half) (S : Fcb) : (S.checkCrc p).crc = S.crc := rfl
@[simp] theorem Fcb.checkCrc_matched (p : Half) (S : Fcb) : (S.checkCrc p).matched = crcMatches S.crc p := rfl
@[simp] theorem Fcb.checkCrc_checked (p : Half) (S : Fcb) : (S.checkCrc p).checked = true := rfl
@[simp] theorem Fcb.checkCrc_phase (p : Half) (S : Fcb) : (S.checkCrc p).phase = S.phase := rfl
@[simp] theorem Fcb.checkCrc_fc (p : Half) (S : Fcb) : (S.checkCrc p).fc = S.fc := rfl
@[simp] theorem Fcb.checkCrc_cls (p : Half) (S : Fcb) : (S.checkCrc p).cls = S.cls := rfl
@[simp] theorem Fcb.checkCrc_need (p : Half) (S : Fcb) : (S.checkCrc p).need = S.need := rfl
@[simp] theorem Fcb.checkCrc_hbc (p : Half) (S : Fcb) : (S.checkCrc p).hbc = S.hbc := rfl
@[simp] theorem Fcb.checkCrc_cnt (p : Half) (S : Fcb) : (S.checkCrc p).cnt = S.cnt := rfl
@[simp] theorem Fcb.checkCrc_total (p : Half) (S : Fcb) : (S.checkCrc p).total = S.total := rfl
@[simp] theorem Fcb.checkCrc_malformed (p : Half) (S : Fcb) : (S.checkCrc p).malformed = S.malformed := rfl
@[simp] theorem Fcb.checkCrc_errSeq (p : Half) (S : Fcb) : (S.checkCrc p).errSeq = S.errSeq := rfl
@[simp] theorem Fcb.checkCrc_errIll (p : Half) (S : Fcb) : (S.checkCrc p).errIll = S.errIll := rfl

@[simp] theorem Fcb.clearClassifier_crc (S : Fcb) : (S.clearClassifier).crc = S.crc := rfl
@[simp] theorem Fcb.clearClassifier_matched (S : Fcb) : (S.clearClassifier).matched = S.matched := rfl
@[simp] theorem Fcb.clearClassifier_checked (S : Fcb) : (S.clearClassifier).checked = S.checked := rfl
@[simp] theorem Fcb.clearClassifier_phase (S : Fcb) : (S.clearClassifier).phase = Phase.idle := rfl
@[simp] theorem Fcb.clearClassifier_fc (S : Fcb) : (S.clearClassifier).fc = 0x00#8 := rfl
@[simp] theorem Fcb.clearClassifier_cls (S : Fcb) : (S.clearClassifier).cls = FrameClass.unknown := rfl
@[simp] theorem Fcb.clearClassifier_need (S : Fcb) : (S.clearClassifier).need = 0#2 := rfl
@[simp] theorem Fcb.clearClassifier_hbc (S : Fcb) : (S.clearClassifier).hbc = 0#2 := rfl
@[simp] theorem Fcb.clearClassifier_cnt (S : Fcb) : (S.clearClassifier).cnt = 0#16 := rfl
@[simp] theorem Fcb.clearClassifier_total (S : Fcb) : (S.clearClassifier).total = 0#17 := rfl
@[simp] theorem Fcb.clearClassifier_malformed (S : Fcb) : (S.clearClassifier).malformed = false := rfl
@[simp] theorem Fcb.clearClassifier_errSeq (S : Fcb) : (S.clearClassifier).errSeq = S.errSeq := rfl
@[simp] theorem Fcb.clearClassifier_errIll (S : Fcb) : (S.clearClassifier).errIll = S.errIll := rfl

@[simp] theorem Fcb.clearErrors_crc (S : Fcb) : (S.clearErrors).crc = S.crc := rfl
@[simp] theorem Fcb.clearErrors_matched (S : Fcb) : (S.clearErrors).matched = S.matched := rfl
@[simp] theorem Fcb.clearErrors_checked (S : Fcb) : (S.clearErrors).checked = S.checked := rfl
@[simp] theorem Fcb.clearErrors_phase (S : Fcb) : (S.clearErrors).phase = S.phase := rfl
@[simp] theorem Fcb.clearErrors_fc (S : Fcb) : (S.clearErrors).fc = S.fc := rfl
@[simp] theorem Fcb.clearErrors_cls (S : Fcb) : (S.clearErrors).cls = S.cls := rfl
@[simp] theorem Fcb.clearErrors_need (S : Fcb) : (S.clearErrors).need = S.need := rfl
@[simp] theorem Fcb.clearErrors_hbc (S : Fcb) : (S.clearErrors).hbc = S.hbc := rfl
@[simp] theorem Fcb.clearErrors_cnt (S : Fcb) : (S.clearErrors).cnt = S.cnt := rfl
@[simp] theorem Fcb.clearErrors_total (S : Fcb) : (S.clearErrors).total = S.total := rfl
@[simp] theorem Fcb.clearErrors_malformed (S : Fcb) : (S.clearErrors).malformed = S.malformed := rfl
@[simp] theorem Fcb.clearErrors_errSeq (S : Fcb) : (S.clearErrors).errSeq = false := rfl
@[simp] theorem Fcb.clearErrors_errIll (S : Fcb) : (S.clearErrors).errIll = false := rfl

@[simp] theorem Fcb.setError_ill (S : Fcb) : S.setError .ill = { S with errIll := true } := rfl
@[simp] theorem Fcb.setError_seq (S : Fcb) : S.setError .seq = { S with errSeq := true } := rfl
@[simp] theorem Fcb.setError_crc (F : ErrorFlag) (S : Fcb) : (S.setError F).crc = S.crc := by cases F <;> rfl
@[simp] theorem Fcb.setError_matched (F : ErrorFlag) (S : Fcb) : (S.setError F).matched = S.matched := by cases F <;> rfl
@[simp] theorem Fcb.setError_checked (F : ErrorFlag) (S : Fcb) : (S.setError F).checked = S.checked := by cases F <;> rfl
@[simp] theorem Fcb.setError_phase (F : ErrorFlag) (S : Fcb) : (S.setError F).phase = S.phase := by cases F <;> rfl
@[simp] theorem Fcb.setError_fc (F : ErrorFlag) (S : Fcb) : (S.setError F).fc = S.fc := by cases F <;> rfl
@[simp] theorem Fcb.setError_cls (F : ErrorFlag) (S : Fcb) : (S.setError F).cls = S.cls := by cases F <;> rfl
@[simp] theorem Fcb.setError_need (F : ErrorFlag) (S : Fcb) : (S.setError F).need = S.need := by cases F <;> rfl
@[simp] theorem Fcb.setError_hbc (F : ErrorFlag) (S : Fcb) : (S.setError F).hbc = S.hbc := by cases F <;> rfl
@[simp] theorem Fcb.setError_cnt (F : ErrorFlag) (S : Fcb) : (S.setError F).cnt = S.cnt := by cases F <;> rfl
@[simp] theorem Fcb.setError_total (F : ErrorFlag) (S : Fcb) : (S.setError F).total = S.total := by cases F <;> rfl
@[simp] theorem Fcb.setError_malformed (F : ErrorFlag) (S : Fcb) : (S.setError F).malformed = S.malformed := by cases F <;> rfl

@[simp] theorem Fcb.startClass_crc (fc : Byte) (c : FrameClass) (S : Fcb) : (S.startClass fc c).crc = S.crc := by
  unfold Fcb.startClass; split <;> rfl
@[simp] theorem Fcb.startClass_matched (fc : Byte) (c : FrameClass) (S : Fcb) : (S.startClass fc c).matched = S.matched := by
  unfold Fcb.startClass; split <;> rfl
@[simp] theorem Fcb.startClass_checked (fc : Byte) (c : FrameClass) (S : Fcb) : (S.startClass fc c).checked = S.checked := by
  unfold Fcb.startClass; split <;> rfl
@[simp] theorem Fcb.startClass_errSeq (fc : Byte) (c : FrameClass) (S : Fcb) : (S.startClass fc c).errSeq = S.errSeq := by
  unfold Fcb.startClass; split <;> rfl
@[simp] theorem Fcb.startClass_errIll (fc : Byte) (c : FrameClass) (S : Fcb) : (S.startClass fc c).errIll = S.errIll := by
  unfold Fcb.startClass; split <;> rfl
@[simp] theorem Fcb.startClass_fc (fc : Byte) (c : FrameClass) (S : Fcb) : (S.startClass fc c).fc = fc := by
  cases c <;> rfl
@[simp] theorem Fcb.startClass_cls (fc : Byte) (c : FrameClass) (S : Fcb) : (S.startClass fc c).cls = c := by
  cases c <;> rfl
@[simp] theorem Fcb.startClass_cnt (fc : Byte) (c : FrameClass) (S : Fcb) : (S.startClass fc c).cnt = 0#16 := by
  cases c <;> rfl
@[simp] theorem Fcb.startClass_hbc (fc : Byte) (c : FrameClass) (S : Fcb) : (S.startClass fc c).hbc = 0#2 := by
  cases c <;> rfl
@[simp] theorem Fcb.startClass_need (fc : Byte) (c : FrameClass) (S : Fcb) : (S.startClass fc c).need = need0 c := by
  cases c <;> rfl

@[simp] theorem Fcb.takeHeader_crc (b : Byte) (S : Fcb) : (S.takeHeader b).crc = S.crc := by
  unfold Fcb.takeHeader; split <;> rfl
@[simp] theorem Fcb.takeHeader_matched (b : Byte) (S : Fcb) : (S.takeHeader b).matched = S.matched := by
  unfold Fcb.takeHeader; split <;> rfl
@[simp] theorem Fcb.takeHeader_checked (b : Byte) (S : Fcb) : (S.takeHeader b).checked = S.checked := by
  unfold Fcb.takeHeader; split <;> rfl
@[simp] theorem Fcb.takeHeader_fc (b : Byte) (S : Fcb) : (S.takeHeader b).fc = S.fc := by
  unfold Fcb.takeHeader; split <;> rfl
@[simp] theorem Fcb.takeHeader_cls (b : Byte) (S : Fcb) : (S.takeHeader b).cls = S.cls := by
  unfold Fcb.takeHeader; split <;> rfl
@[simp] theorem Fcb.takeHeader_malformed (b : Byte) (S : Fcb) : (S.takeHeader b).malformed = S.malformed := by
  unfold Fcb.takeHeader; split <;> rfl
@[simp] theorem Fcb.takeHeader_errSeq (b : Byte) (S : Fcb) : (S.takeHeader b).errSeq = S.errSeq := by
  unfold Fcb.takeHeader; split <;> rfl
@[simp] theorem Fcb.takeHeader_errIll (b : Byte) (S : Fcb) : (S.takeHeader b).errIll = S.errIll := by
  unfold Fcb.takeHeader; split <;> rfl
@[simp] theorem Fcb.takeHeader_cnt (b : Byte) (S : Fcb) : (S.takeHeader b).cnt = accumulate S.cnt b := by
  unfold Fcb.takeHeader; split <;> rfl
@[simp] theorem Fcb.takeHeader_hbc (b : Byte) (S : Fcb) : (S.takeHeader b).hbc = S.hbc + 1#2 := by
  unfold Fcb.takeHeader; split <;> rfl
@[simp] theorem Fcb.takeHeader_need (b : Byte) (S : Fcb) : (S.takeHeader b).need = S.need - 1#2 := by
  unfold Fcb.takeHeader; split <;> rfl

end Sys2Proof.Machine
end

