-- ==== Sys2Proof/Laws/Ops.lean ====
section
/-! SUPPORT. One lemma per shared operation saying once what it does, for later proofs to cite. -/

namespace Sys2Proof.Machine

/-- A class that needs no header byte is finished by `CLS_START` (R70). -/
theorem Fcb.startClass_of_no_header (fc : Byte) (c : FrameClass) (S : Fcb) (h : need0 c = 0#2) :
    S.startClass fc c = { S with fc := fc, cls := c, cnt := 0#16, hbc := 0#2, need := 0#2, phase := .done,
                                 total := lengthReg c 0#16, malformed := isMalformed c } := by
  unfold Fcb.startClass; rw [if_pos h]

/-- A class that needs header bytes waits for them (R70). -/
theorem Fcb.startClass_of_header (fc : Byte) (c : FrameClass) (S : Fcb) (h : need0 c ≠ 0#2) :
    S.startClass fc c = { S with fc := fc, cls := c, cnt := 0#16, hbc := 0#2, need := need0 c, phase := .waitHdr,
                                 total := 0#17, malformed := false } := by
  unfold Fcb.startClass; rw [if_neg h]

/-- The last header byte finishes the classification (R71). -/
theorem Fcb.takeHeader_last (b : Byte) (S : Fcb) (h : S.need - 1#2 = 0#2) :
    S.takeHeader b = { S with cnt := accumulate S.cnt b, hbc := S.hbc + 1#2, need := S.need - 1#2,
                              total := lengthReg S.cls (accumulate S.cnt b), phase := .done } := by
  unfold Fcb.takeHeader; rw [if_pos h]

/-- An earlier header byte leaves the classifier waiting (R71). -/
theorem Fcb.takeHeader_more (b : Byte) (S : Fcb) (h : S.need - 1#2 ≠ 0#2) :
    S.takeHeader b = { S with cnt := accumulate S.cnt b, hbc := S.hbc + 1#2, need := S.need - 1#2 } := by
  unfold Fcb.takeHeader; rw [if_neg h]

/-- `need0` and `hbc` of a class are the same number (R68). -/
theorem need0_toNat (c : FrameClass) : (need0 c).toNat = headerBytes c := by cases c <;> rfl

/-- No frame length exceeds 65541 (R23, R68). -/
theorem frameLen_le (c : FrameClass) (n : Half) : frameLen c n.toNat ≤ 65541 := by
  have := n.isLt
  cases c <;> simp only [frameLen] <;> omega

/-- `total` holds the exact length (R23). -/
theorem lengthReg_toNat (c : FrameClass) (n : Half) : (lengthReg c n).toNat = frameLen c n.toNat := by
  have := frameLen_le c n
  simp only [lengthReg, BitVec.toNat_ofNat]
  omega

/-- The codes of the classes are distinct (R19). -/
theorem FrameClass.code_inj {c d : FrameClass} (h : c.code = d.code) : c = d := by
  revert h; cases c <;> cases d <;> decide

/-- The low byte of a pair (R50). -/
theorem pair_lo (hi lo : Byte) : (hi ++ lo : Half).extractLsb' 0 8 = lo := by
  show BitVec.extractLsb' 0 8 (hi ++ lo : BitVec (8 + 8)) = lo
  ext i h
  simp only [BitVec.getElem_extractLsb', BitVec.getLsbD_append, Nat.zero_add, h, if_true]
  exact BitVec.getLsbD_eq_getElem h

/-- The high byte of a pair (R50). -/
theorem pair_hi (hi lo : Byte) : (hi ++ lo : Half).extractLsb' 8 8 = hi := by
  show BitVec.extractLsb' 8 8 (hi ++ lo : BitVec (8 + 8)) = hi
  ext i h
  simp only [BitVec.getElem_extractLsb', BitVec.getLsbD_append, show ¬ 8 + i < 8 by omega, show 8 + i - 8 = i by omega,
    if_false]
  exact BitVec.getLsbD_eq_getElem h

/-- A 16-bit value is the pair of its bytes. -/
theorem pair_of_bytes (c : Half) : (c.extractLsb' 8 8 ++ c.extractLsb' 0 8 : Half) = c := by
  show (c.extractLsb' 8 8 ++ c.extractLsb' 0 8 : BitVec (8 + 8)) = c
  ext i h
  simp only [BitVec.getElem_append, BitVec.getElem_extractLsb']
  by_cases h8 : i < 8
  · simp only [h8, dif_pos, Nat.zero_add]
    exact BitVec.getLsbD_eq_getElem h
  · simp only [h8, dif_neg, not_false_iff, show 8 + (i - 8) = i by omega]
    exact BitVec.getLsbD_eq_getElem h

/-- Two pairs are equal when their bytes are. -/
theorem pair_inj {hi lo hi' lo' : Byte} : (hi ++ lo : Half) = hi' ++ lo' ↔ hi = hi' ∧ lo = lo' := by
  constructor
  · intro h
    have hlo := congrArg (fun x => BitVec.extractLsb' 0 8 x) h
    have hhi := congrArg (fun x => BitVec.extractLsb' 8 8 x) h
    exact ⟨(pair_hi hi lo).symm.trans (hhi.trans (pair_hi hi' lo')),
      (pair_lo hi lo).symm.trans (hlo.trans (pair_lo hi' lo'))⟩
  · rintro ⟨rfl, rfl⟩
    rfl

/-- Accumulating a byte onto a one-byte count loses nothing and is big-endian (R37, R71). -/
theorem accumulate_toNat (cnt : Half) (b : Byte) (h : cnt.toNat < 256) :
    (accumulate cnt b).toNat = cnt.toNat * 256 + b.toNat := by
  have hb := b.isLt
  unfold accumulate
  rw [BitVec.toNat_or, BitVec.toNat_shiftLeft, BitVec.toNat_setWidth, Nat.shiftLeft_eq,
    Nat.mod_eq_of_lt (show cnt.toNat * 2 ^ 8 < 2 ^ 16 by omega), Nat.mod_eq_of_lt (show b.toNat < 2 ^ 16 by omega),
    Nat.mul_comm, ← Nat.two_pow_add_eq_or_of_lt hb]
  omega

/-- One shift-and-XOR step is linear. -/
theorem crcShift_xor (a b : Half) : crcShift (a ^^^ b) = crcShift a ^^^ crcShift b := by
  unfold crcShift
  rw [BitVec.getLsbD_xor, BitVec.ushiftRight_xor_distrib]
  cases a.getLsbD 0 <;> cases b.getLsbD 0 <;> simp only [Bool.xor_self, Bool.xor_false, Bool.xor_true, Bool.not_false,
    Bool.false_eq_true, if_true, if_false]
  · ac_rfl
  · ac_rfl
  · rw [BitVec.xor_assoc, BitVec.xor_comm (b >>> 1), ← BitVec.xor_assoc Config.crcPoly, BitVec.xor_self,
      BitVec.zero_xor]

/-- So are any number of steps. -/
theorem crcShifts_xor (n : Nat) (a b : Half) : crcShifts n (a ^^^ b) = crcShifts n a ^^^ crcShifts n b := by
  induction n generalizing a b with
  | zero => rfl
  | succ n ih => simp only [crcShifts, crcShift_xor, ih]

@[simp] theorem regRead_crc (S : Fcb) : regRead 0x0#4 S = S.crc.setWidth 32 := rfl
@[simp] theorem regRead_crcLo (S : Fcb) : regRead 0x1#4 S = (crcLo S.crc).setWidth 32 := rfl
@[simp] theorem regRead_crcHi (S : Fcb) : regRead 0x2#4 S = (crcHi S.crc).setWidth 32 := rfl
@[simp] theorem regRead_status (S : Fcb) : regRead 0x3#4 S = statusWord S := rfl
@[simp] theorem regRead_fc (S : Fcb) : regRead 0x4#4 S = S.fc.setWidth 32 := rfl
@[simp] theorem regRead_info (S : Fcb) : regRead 0x5#4 S = clsInfoWord S := rfl
@[simp] theorem regRead_count (S : Fcb) : regRead 0x6#4 S = S.cnt.setWidth 32 := rfl
@[simp] theorem regRead_total (S : Fcb) : regRead 0x7#4 S = S.total.setWidth 32 := rfl
@[simp] theorem regRead_remain (S : Fcb) : regRead 0x8#4 S = S.remain.setWidth 32 := rfl
@[simp] theorem regRead_crclen (S : Fcb) : regRead 0x9#4 S = S.crclen.setWidth 32 := rfl

end Sys2Proof.Machine
end

