-- ==== Sys2Proof/Laws/Step.lean ====
section
/-! SUPPORT. What one step can do, said once: every meaning is an operation on the block, and a step is one of five cases. -/

namespace Sys2Proof.Machine

/-- Every instruction is one operation on the block, the same in every state, that leaves the host's side alone. -/
theorem exec_onBlock (i : Instr) : ∃ f : Fcb → Fcb, ∀ s : State, exec i s = .next (s.onBlock f) := by
  cases i
  case nop => exact ⟨id, fun _ => rfl⟩
  all_goals exact ⟨_, fun _ => rfl⟩

/-- Inversion of `step`: the five things it can do. -/
theorem step_cases {s t : State} (h : step s = .next t) :
    (s.pending = [] ∧ t = s) ∨
    (∃ w rest i, s.pending = .command w :: rest ∧ decode w = some i ∧ exec i { s with pending := rest } = .next t) ∨
    (∃ w rest, s.pending = .command w :: rest ∧ decode w = none ∧
      t = { s with pending := rest, fcb := s.fcb.setError .ill }) ∨
    (∃ a rest, s.pending = .read a :: rest ∧
      t = { s with pending := rest, reads := s.reads ++ [(a, regRead a s.fcb)] }) ∨
    (∃ rest, s.pending = .reset :: rest ∧ t = { s with pending := rest, fcb := Fcb.reset }) := by
  unfold step at h
  cases hp : s.pending with
  | nil =>
    simp only [fetch, hp, execIdle, Host.Outcome.next.injEq] at h
    exact .inl ⟨rfl, h.symm⟩
  | cons a rest =>
    cases a with
    | command w =>
      cases hd : decode w with
      | none =>
        simp only [fetch, hp, hd, execIllegal, Host.Outcome.next.injEq] at h
        exact .inr (.inr (.inl ⟨w, rest, rfl, hd, h.symm⟩))
      | some i =>
        simp only [fetch, hp, hd] at h
        exact .inr (.inl ⟨w, rest, i, rfl, hd, h⟩)
    | read a =>
      simp only [fetch, hp, execRead, Host.Outcome.next.injEq] at h
      exact .inr (.inr (.inr (.inl ⟨a, rest, rfl, h.symm⟩)))
    | reset =>
      simp only [fetch, hp, execReset, Host.Outcome.next.injEq] at h
      exact .inr (.inr (.inr (.inr ⟨rest, rfl, h.symm⟩)))

/-- Only a command word's decoding is ever performed, and only commands are decoded: no ROM entry (R53). -/
theorem decode_cases {w : CmdWord} {i : Instr} (h : decode w = some i) :
    i = .nop ∨ i = .crcInit ∨ i = .crcByte w.lo ∨ i = .crcCheck w.lo w.hi ∨ i = .clsStart w.lo ∨ i = .clsHdr w.lo ∨
    i = .clsClear ∨ i = .errClear ∨ i = .softReset := by
  unfold decode cmdRows at h
  simp only [List.find?] at h
  repeat' split at h
  all_goals simp_all

/-- One step at the head of a run. -/
theorem run_succ {s t : State} (n : Nat) (h : step s = .next t) :
    Sys2Proof.core.run (n + 1) s = Sys2Proof.core.run n t := by
  have hs : Sys2Proof.core.step s = .next t := h
  exact (Host.Core.run.eq_2 _ _ _).trans (by rw [hs])

end Sys2Proof.Machine
end

