-- ==== Sys2Proof/Tests/Slice0.lean ====
section
/-! SUPPORT. The model's own tests. Expected values are the spec's: rules R51 to R91 and 95_test_vectors.md, whose vector a test
names. -/

namespace Sys2Proof.Tests

open Sys2Proof.Machine

/-! ## Ill-formed instructions are refused (R56) -/

theorem test_illformed_1A1B : (Instr.fc1A1B 0x1C#8).wellFormed = false := by decide
theorem test_illformed_1C1F : (Instr.fc1C1F 0x1B#8).wellFormed = false := by decide
theorem test_illformed_203F : (Instr.fc203F 0x40#8).wellFormed = false := by decide
theorem test_illformed_407F : (Instr.fc407F 0x80#8).wellFormed = false := by decide
theorem test_illformed_80FF : (Instr.fc80FF 0x7F#8).wellFormed = false := by decide

/-! ## Decoding: words written out bit by bit from R51 and the FCROM rows -/

theorem test_decode_nop : decodeTableWord 24 0b000000000000000000000000 = some .nop := by decide
theorem test_decode_crc_init : decodeTableWord 24 0b000000010000000000000000 = some .crcInit := by decide
theorem test_decode_crc_byte : decodeTableWord 24 0b000000100000000010100101 = some (.crcByte 0xA5#8) := by decide
theorem test_decode_crc_check :
    decodeTableWord 24 0b000000111100110111000101 = some (.crcCheck 0xC5#8 0xCD#8) := by decide
theorem test_decode_cls_start : decodeTableWord 24 0b000100000000000010000011 = some (.clsStart 0x83#8) := by decide
theorem test_decode_cls_hdr : decodeTableWord 24 0b000100010000000000010100 = some (.clsHdr 0x14#8) := by decide
theorem test_decode_cls_clear : decodeTableWord 24 0b000100100000000000000000 = some .clsClear := by decide
theorem test_decode_err_clear : decodeTableWord 24 0b001100000000000000000000 = some .errClear := by decide
theorem test_decode_soft_reset : decodeTableWord 24 0b001111110000000000000000 = some .softReset := by decide

/-- The rows of format FCROM that name one code, in the table's order. -/
theorem test_decode_rom_single : (List.range 26).map (decodeTableWord 8) =
    [some .fc00, some .fc01, some .fc02, some .fc03, some .fc04, some .fc05, some .fc06, some .fc07, some .fc08] ++
    [some .fc09, some .fc0A, some .fc0B, some .fc0C, some .fc0D, some .fc0E, some .fc0F, some .fc10, some .fc11] ++
    [some .fc12, some .fc13, some .fc14, some .fc15, some .fc16, some .fc17, some .fc18, some .fc19] := by decide

/-- The rows of format FCROM that name a range: its first and last code. -/
theorem test_decode_rom_ranges :
    [0x1A, 0x1B, 0x1C, 0x1F, 0x20, 0x3F, 0x40, 0x7F, 0x80, 0xFF].map (decodeTableWord 8) =
    [some (.fc1A1B 0x1A#8), some (.fc1A1B 0x1B#8), some (.fc1C1F 0x1C#8), some (.fc1C1F 0x1F#8),
     some (.fc203F 0x20#8), some (.fc203F 0x3F#8), some (.fc407F 0x40#8), some (.fc407F 0x7F#8),
     some (.fc80FF 0x80#8), some (.fc80FF 0xFF#8)] := by decide

/-- 95_test_vectors.md §4: the words that encode no command. -/
theorem test_decode_illegal :
    [0x000001#24, 0x010001#24, 0x020100#24, 0x040000#24, 0x0F0000#24, 0x10FF03#24, 0x110100#24, 0x120001#24,
     0x130000#24, 0x300001#24, 0x3F0001#24, 0xFF0000#24].map decode = List.replicate 12 none := by decide

/-! ## The CRC function (vectors V2 to V29) -/

/-- V2 to V11: one byte from the seed. -/
theorem test_crc_step_seed :
    [0x00#8, 0x01#8, 0x02#8, 0x03#8, 0x0A#8, 0x55#8, 0x7F#8, 0x80#8, 0xAA#8, 0xFF#8].map (crcStep8 0xFFFF#16) =
    [0x40BF#16, 0x807E#16, 0x813E#16, 0x41FF#16, 0x473F#16, 0x7F7F#16, 0xA0FE#16, 0xE0BE#16, 0x3F3F#16, 0x00FF#16] := by
  decide

/-- V13, V15. -/
theorem test_crc_step_other : crcStep8 0x0000#16 0x01#8 = 0xC0C1#16 ∧ crcStep8 0x1234#16 0x56#8 = 0xE993#16 := by decide

/-- S1 and V16: the source's own vector. -/
theorem test_crc_source_vector :
    crc16 [0x01#8, 0x03#8, 0x00#8, 0x00#8, 0x00#8, 0x0A#8] 0 6 = some (0xC5#8, 0xCD#8) := by decide +kernel

/-- V18: "123456789". -/
theorem test_crc_check_value :
    crcOf [0x31#8, 0x32#8, 0x33#8, 0x34#8, 0x35#8, 0x36#8, 0x37#8, 0x38#8, 0x39#8] = 0x4B37#16 := by decide +kernel

/-- V21, V28, V29. -/
theorem test_crc_more : crcOf [0x01#8, 0x05#8, 0x00#8, 0xAC#8, 0xFF#8, 0x00#8] = 0x1B4C#16 ∧
    crcOf [0xFF#8, 0xFF#8, 0xFF#8, 0xFF#8] = 0xB001#16 ∧ crcOf [0x00#8, 0x00#8, 0x00#8, 0x00#8] = 0x2400#16 := by decide +kernel

/-- 95_test_vectors.md §2.1, the rows 00, 80 and F8 of the derived table. -/
theorem test_crc_table_rows : [0x00#8, 0x01#8, 0x02#8, 0x03#8, 0x84#8, 0x85#8, 0xFE#8, 0xFF#8].map crcTable =
    [0x0000#16, 0xC0C1#16, 0xC181#16, 0x0140#16, 0x6300#16, 0xA3C1#16, 0x8081#16, 0x4040#16] := by decide

/-! ## One step each -/

/-- The block after one word is performed from the state `S`, read at one address; `none` if the step does not go on. -/
def readAfter (S : Fcb) (w : CmdWord) (a : RegAddr) : Option RegData :=
  match step { fcb := S, pending := [.command w], reads := [] } with
  | .next t => some (regRead a t.fcb)
  | .fault _ => none
  | .refused _ => none

/-- A block waiting for the second of two count bytes, with a check result and both error flags set. -/
def busy : Fcb :=
  { crc := 0xCDC5#16, matched := true, checked := true, phase := .waitHdr, fc := 0x18#8, cls := .count16, need := 1#2,
    hbc := 1#2, cnt := 0x0012#16, total := 0#17, malformed := false, errSeq := true, errIll := true }

theorem test_nop_keeps_status : readAfter busy 0x000000#24 0x3#4 = some 0x67#32 := by decide
theorem test_crc_init : readAfter busy 0x010000#24 0x0#4 = some 0x0000FFFF#32 := by decide
theorem test_crc_init_clears_check : readAfter busy 0x010000#24 0x3#4 = some 0x64#32 := by decide
/-- §4: word 0x0200FF from reset. -/
theorem test_crc_byte : readAfter Fcb.reset 0x0200FF#24 0x0#4 = some 0x000000FF#32 := by decide
theorem test_crc_byte_clears_check : readAfter busy 0x020000#24 0x3#4 = some 0x64#32 := by decide
/-- V31 and §4. -/
theorem test_crc_check_match : readAfter Fcb.reset 0x03FFFF#24 0x3#4 = some 0x03#32 := by decide
theorem test_crc_check_mismatch : readAfter Fcb.reset 0x03CDC5#24 0x3#4 = some 0x02#32 := by decide
/-- V36: the pair is compared low byte to `crc[7:0]`. -/
theorem test_crc_check_order : readAfter busy 0x03C5CD#24 0x3#4 = some 0x66#32 := by decide
/-- §3: CLS_START 0x18 gives CLS_INFO 0x45 (program P3). -/
theorem test_cls_start_counted : readAfter Fcb.reset 0x100018#24 0x5#4 = some 0x45#32 := by decide
/-- K3: a restart from WAIT_HDR. -/
theorem test_cls_start_restart : readAfter busy 0x100006#24 0x6#4 = some 0#32 := by decide
/-- R71, R37: the second byte is the low byte; N = 0x1234, total N + 6. -/
theorem test_cls_hdr_last : readAfter busy 0x110034#24 0x7#4 = some 0x123A#32 := by decide
theorem test_cls_hdr_last_remain : readAfter busy 0x110034#24 0x8#4 = some 0x1236#32 := by decide
/-- K1: out of phase. -/
theorem test_cls_hdr_idle : readAfter Fcb.reset 0x110005#24 0x3#4 = some 0x20#32 := by decide
theorem test_cls_clear : readAfter busy 0x120000#24 0x3#4 = some 0x63#32 := by decide
theorem test_cls_clear_info : readAfter busy 0x120000#24 0x5#4 = some 0#32 := by decide
theorem test_err_clear : readAfter busy 0x300000#24 0x3#4 = some 0x07#32 := by decide
theorem test_soft_reset : readAfter busy 0x3F0000#24 0x3#4 = some 0#32 := by decide
theorem test_soft_reset_crc : readAfter busy 0x3F0000#24 0x2#4 = some 0xFF#32 := by decide
/-- §4: ERR_ILL, not ERR_SEQ, for `CLS_HDR` with a non-zero high byte (R87). -/
theorem test_illegal_priority : readAfter Fcb.reset 0x110100#24 0x3#4 = some 0x40#32 := by decide
/-- §4: an illegal ERR_CLEAR word clears nothing. -/
theorem test_illegal_err_clear : readAfter busy 0x300001#24 0x3#4 = some 0x67#32 := by decide

/-- CLS_TOTAL and STATUS after the step that a ROM entry's word makes, from reset. -/
def romAfter (fc : Nat) : Option (RegData × RegData) :=
  match step (State.reset.withFetchWord 8 fc) with
  | .next t => some (regRead 0x7#4 t.fcb, regRead 0x3#4 t.fcb)
  | .fault _ => none
  | .refused _ => none

/-- §3, the rows without header bytes, and the count rows before any. -/
theorem test_rom_entries : [0x05, 0x16, 0x07, 0x08, 0x80, 0xFF, 0x00, 0x2B, 0x7F, 0x03, 0x18].map romAfter =
    [some (8, 0x08), some (8, 0x08), some (3, 0x08), some (3, 0x08), some (5, 0x08), some (5, 0x08),
     some (0, 0x18), some (0, 0x18), some (0, 0x18), some (0, 0x04), some (0, 0x04)] := by decide

/-- §4: the read port after reset. -/
theorem test_reset_reads : (List.range 16).map (fun a => regRead (BitVec.ofNat 4 a) State.reset.fcb) =
    [0xFFFF#32, 0xFF#32, 0xFF#32] ++ List.replicate 13 0#32 := by decide

/-- P2's last state: CLS_COUNT 2, CLS_TOTAL 7, CLS_REMAIN 4, CLS_CRCLEN 5. -/
theorem test_derived_lengths :
    let S : Fcb := { Fcb.reset with phase := .done, fc := 0x03#8, cls := .count8, hbc := 1#2, cnt := 2#16, total := 7#17 }
    regRead 0x8#4 S = 4#32 ∧ regRead 0x9#4 S = 5#32 := by decide

/-! ## Text (R57, R58) -/

/-- R57: `CRC_CHECK 0xC5, 0xCD` is the word 0x03CDC5. -/
theorem test_assemble_crc_check :
    (assembleLine ['C', 'R', 'C', '_', 'C', 'H', 'E', 'C', 'K', ' ', '0', 'x', 'C', '5', ',', ' ', '0', 'x', 'C', 'D']).map
      (fun is => is.map encode) = some [.cmd 0x03CDC5#24] := by decide

/-- R57: a decimal operand and a comment. -/
theorem test_assemble_decimal :
    assembleLine ['C', 'L', 'S', '_', 'H', 'D', 'R', ' ', '2', '5', '5', ';', 'x'] = some [.clsHdr 0xFF#8] := by decide

/-- R57: operands end at 255. -/
theorem test_assemble_out_of_range :
    assembleLine ['C', 'L', 'S', '_', 'H', 'D', 'R', ' ', '2', '5', '6'] = none := by decide

/-- R58: `FRAME_CHECK 1, 2, 3`. -/
theorem test_assemble_frame_check :
    assembleLine ['F', 'R', 'A', 'M', 'E', '_', 'C', 'H', 'E', 'C', 'K', ' ', '1', ',', '2', ',', '3'] =
      some [.crcInit, .crcByte 1#8, .crcCheck 2#8 3#8] := by decide

/-! ## Witnesses: states and operands that meet the hypotheses of each obligation that has some -/

/-- A machine with block `S` whose host is about to do `acts`. -/
def facing (S : Fcb) (acts : List HostAction) : State := { fcb := S, pending := acts, reads := [] }

/-- The word of an instruction, as the host writes it. -/
abbrev sent (w : CmdWord) : HostAction := .command w

/-- A reachable block: function code 0x18 done with count 0xFFFF. -/
def longFrame : Fcb :=
  { Fcb.reset with phase := .done, fc := 0x18#8, cls := .count16, hbc := 2#2, cnt := 0xFFFF#16, total := 65541#17 }

theorem witness_DecodeEncodeRoundTrip :
    (Instr.fc1A1B 0x1B#8).wellFormed = true ∧ (Instr.crcCheck 0xFF#8 0x00#8).wellFormed = true := by decide
theorem witness_EncodeDecodeRoundTrip :
    decodeWord (.cmd 0x03FFFF#24) = some (.crcCheck 0xFF#8 0xFF#8) ∧ decodeWord (.fcrom 0xFF#8) = some (.fc80FF 0xFF#8) := by
  decide
theorem witness_IllegalWords : decode 0x000001#24 = none ∧ decode 0x02FF00#24 = none ∧ decode 0xFFFFFF#24 = none ∧
    (facing busy [sent 0xFFFFFF#24]).pending = [sent 0xFFFFFF#24] := by decide
theorem witness_RomIsTheSourcesTable : (0x17#8).toNat ∈ [0x01, 0x02, 0x03, 0x04, 0x0C, 0x11, 0x14, 0x15, 0x17] ∧
    (0x16#8).toNat ∈ [0x05, 0x06, 0x0B, 0x0F, 0x10, 0x16] ∧ (0x08#8).toNat ∈ [0x07, 0x08] ∧ (0x18#8).toNat = 0x18 ∧
    0x80 ≤ (0x80#8).toNat ∧ 0x19 ≤ (0x7F#8).toNat ∧ (0x7F#8).toNat ≤ 0x7F := by decide
theorem witness_StepRunsDecodedCommand :
    (facing busy [sent 0x110034#24]).pending = [sent 0x110034#24] ∧ decode 0x110034#24 = some (.clsHdr 0x34#8) ∧
    State.reset.pending = [] := by decide
theorem witness_ExecLeavesTheHostSide : ∃ t, exec .errClear (facing busy [.reset]) = .next t := ⟨_, rfl⟩
theorem witness_SetErrorSetsOnlyItsFlag :
    decode 0x040000#24 = none ∧ decode 0x110000#24 = some (.clsHdr 0x00#8) ∧ longFrame.phase ≠ .waitHdr ∧
    ∃ t, step (facing longFrame [sent 0x110000#24]) = .next t := ⟨by decide, by decide, by decide, _, rfl⟩
theorem witness_ReadPortIsSideEffectFree :
    (facing busy [.read 0xF#4]).pending = [.read 0xF#4] ∧ 0xA ≤ (0xA#4).toNat ∧ 0xA ≤ (0xF#4).toNat ∧
    ∃ t, step (facing busy [sent 0x010000#24, .read 0x0#4, .read 0x0#4]) = .next t := ⟨rfl, by decide, by decide, _, rfl⟩
theorem witness_ActionsTakeEffectInOrder :
    ∃ t, Sys2Proof.core.run 1 (facing busy ([sent 0x010000#24] ++ [.reset])) = .next t := ⟨_, rfl⟩
theorem witness_RunningWordsPerformsInstructions :
    (∀ i ∈ [Instr.crcByte 0xFF#8, .fc80FF 0x80#8, .nop], i.wellFormed = true) ∧
    (facing busy ([Instr.crcByte 0xFF#8, .fc80FF 0x80#8, .nop].map actionOf)).pending =
      [Instr.crcByte 0xFF#8, .fc80FF 0x80#8, .nop].map actionOf := by decide
theorem witness_ResetValues : (facing busy [.reset]).pending = [.reset] := rfl
/-- Also for `NopDoesNothing`, `SoftReset`, `CrcInitSeeds`, `ClsClearReturnsToIdle`: an operand that makes the word illegal. -/
theorem witness_ErrClearClearsStickyFlags :
    (0x0001#16) ≠ 0#16 ∧ regRead 0x3#4 { Fcb.reset with errSeq := true, errIll := true } = 0x60#32 ∧
    (∃ t, exec .errClear (facing { Fcb.reset with errSeq := true, errIll := true } []) = .next t) ∧
    (∃ t, exec .softReset (facing busy []) = .next t) ∧ (∃ t, exec .crcInit (facing busy []) = .next t) ∧
    ∃ t, exec .clsClear (facing busy []) = .next t := ⟨by decide, by decide, ⟨_, rfl⟩, ⟨_, rfl⟩, ⟨_, rfl⟩, _, rfl⟩
/-- Also for `CrcByteAbsorbs`, `ClsStartLatches`, `ClsHdrTakesAByte`: a high byte that makes the word illegal. -/
theorem witness_ClsHdrTakesAByte : (0x01#8) ≠ 0#8 ∧ busy.phase = .waitHdr ∧ Fcb.reset.phase ≠ .waitHdr ∧
    { busy with matched := true, checked := true }.Inv ∧ busy.CountInv ∧ need0 .fixed3 = 0#2 := by decide
theorem witness_Crc16Contract : 2 + 1 ≤ [0x01#8, 0x03#8, 0x00#8].length ∧
    [0x01#8, 0x03#8, 0x00#8].length ≤ [0x01#8, 0x03#8, 0x00#8].length ∧
    crc16 [0x01#8, 0x03#8, 0x00#8] 0 2 = some (0x40#8, 0x21#8) ∧ [0x01#8, 0x03#8, 0x00#8][0 + 2]? = some 0x00#8 :=
  ⟨by decide, by decide, by decide +kernel, rfl⟩
theorem witness_CrcCommandsFrame : (∃ t, exec .crcInit (facing busy []) = .next t) ∧
    (∃ t, exec (.crcByte 0xFF#8) (facing busy []) = .next t) ∧ ∃ t, exec (.crcCheck 0#8 0#8) (facing busy []) = .next t :=
  ⟨⟨_, rfl⟩, ⟨_, rfl⟩, _, rfl⟩
theorem witness_OnlyCrcWritersChangeCrc :
    ∃ t, step (facing busy [sent 0x010000#24]) = .next t ∧ t.fcb.crc ≠ busy.crc := ⟨_, rfl, by decide⟩
theorem witness_CheckResultLifetime : (∃ t, step (facing busy [sent 0x03CDC5#24]) = .next t) ∧
    (sent 0x03CDC5#24).instr = some (.crcCheck 0xC5#8 0xCD#8) ∧ (sent 0x010000#24).instr = some .crcInit ∧
    (sent 0x0200FF#24).instr = some (.crcByte 0xFF#8) ∧ (HostAction.read 0x0#4).instr = none := ⟨⟨_, rfl⟩, by decide⟩
theorem witness_CrcRunComputesCrc16 :
    let acts := [sent 0x020001#24, .read 0x0#4, sent 0x100003#24, sent 0x020003#24, sent 0xFFFFFF#24]
    (∀ a ∈ acts, a.crcFeed.isSome = true ∨ a.leavesCrc = true) ∧ 1 + 2 ≤ [0x00#8, 0x01#8, 0x03#8].length ∧
    acts.filterMap HostAction.crcFeed = ([0x00#8, 0x01#8, 0x03#8].drop 1).take 2 ∧
    (facing busy (actionOf .crcInit :: acts)).pending = actionOf .crcInit :: acts :=
  ⟨by decide, by decide, by decide, rfl⟩
theorem witness_OneCorruptedByteIsDetected : ∃ is t, frameCheck [0x01#8, 0x7E#8, 0x80#8] = some is ∧
    execAll is State.reset = .next t ∧ t.fcb.matched = true ∧ 2 < [0x01#8, 0x7E#8, 0x80#8].length ∧
    [0x01#8, 0x7E#8, 0x80#8][2]? ≠ some 0x81#8 := ⟨_, _, rfl, rfl, by decide, by decide, by decide⟩
theorem witness_CrcStepIsInjective : crcStep8 0x0000#16 0x00#8 = crcStep8 0x0000#16 0x00#8 := rfl
theorem witness_Fixed3FramesNeverPass : (0x07#8 : Byte) = 0x07#8 ∨ (0x07#8 : Byte) = 0x08#8 := .inl rfl
theorem witness_RomEntries : 0x80 ≤ (0xFF#8).toNat ∧ (0x1A ≤ (0x1B#8).toNat ∧ (0x1B#8).toNat ≤ 0x1B) ∧
    (0x1C ≤ (0x1C#8).toNat ∧ (0x1C#8).toNat ≤ 0x1F) ∧ (0x20 ≤ (0x3F#8).toNat ∧ (0x3F#8).toNat ≤ 0x3F) ∧
    (0x40 ≤ (0x7F#8).toNat ∧ (0x7F#8).toNat ≤ 0x7F) := by decide
theorem witness_ClassifierCommandsFrame : decodeRom 0x18#8 = some .fc18 ∧
    (∃ t, exec .fc18 (facing busy []) = .next t) ∧ (∃ t, exec (.clsHdr 0x00#8) (facing longFrame []) = .next t) ∧
    (∃ t, exec .clsClear (facing busy []) = .next t) ∧ ∃ t, exec (.clsStart 0xFF#8) (facing busy []) = .next t :=
  ⟨by decide, ⟨_, rfl⟩, ⟨_, rfl⟩, ⟨_, rfl⟩, _, rfl⟩
/-- Also for `HeaderCounters`. -/
theorem witness_ClassifierResultFields : (∃ t, step (facing busy [sent 0x110034#24]) = .next t) ∧
    (sent 0x110034#24).instr = some (.clsHdr 0x34#8) ∧ busy.phase = .waitHdr ∧ busy.Inv ∧ longFrame.Inv ∧
    (sent 0x1000FF#24).instr = some (.clsStart 0xFF#8) ∧ (sent 0x120000#24).instr = some .clsClear ∧
    (sent 0x000000#24).instr = some .nop :=
  ⟨⟨_, rfl⟩, by decide, rfl, by decide, by decide, by decide, by decide, by decide⟩
theorem witness_ClassificationRunComputesClassify :
    let peek : Nat → Byte := fun k => BitVec.ofNat 8 (16 * k)
    let headers := [([sent 0x020018#24], 0x10#8), ([.read 0x3#4, sent 0x300000#24], 0x20#8)]
    (∀ p ∈ headers, ∀ a ∈ p.1, a.leavesClassifier = true) ∧ (∀ a ∈ [sent 0x000000#24], a.leavesClassifier = true) ∧
    headers.map Prod.snd = (List.range headers.length).map (fun k => peek (k + 1)) ∧
    headers.length = headerBytes (rom 0x18#8) ∧ ([] : List (List HostAction × Byte)).length < headerBytes (rom 0x18#8) ∧
    (∀ a ∈ actionOf (.clsStart 0x18#8) :: (headerActions headers ++ [sent 0x000000#24]), a.legal = true) := by decide
theorem witness_RemainAndCrcLength : longFrame.Inv ∧ longFrame.phase = .done ∧ longFrame.malformed = false ∧
    Fcb.reset.Inv ∧ Fcb.reset.phase ≠ .done := ⟨by decide, rfl, rfl, by decide, by decide⟩
theorem witness_TotalIsExact : longFrame.Inv ∧ longFrame.phase = .done ∧ busy.Inv ∧ busy.phase ≠ .done :=
  ⟨by decide, rfl, by decide, by decide⟩
theorem witness_StepKeepsInvariants : busy.Inv ∧ busy.CountInv ∧
    ∃ t, step (facing busy [sent 0x1100FF#24]) = .next t := ⟨by decide, by decide, _, rfl⟩
theorem witness_StickyErrorFlags : (∃ t, step (facing longFrame [sent 0x110000#24]) = .next t) ∧
    (sent 0x110000#24).instr = some (.clsHdr 0x00#8) ∧ longFrame.phase ≠ .waitHdr ∧ decode 0x3F0001#24 = none ∧
    (sent 0x300000#24).instr = some .errClear ∧ (sent 0x3F0000#24).instr = some .softReset ∧ busy.errSeq = true :=
  ⟨⟨_, rfl⟩, by decide⟩
theorem witness_AtMostOneCondition : Condition.illegalWord.raisedBy 0x110100#24 Fcb.reset = true ∧
    Condition.sequence.raisedBy 0x110000#24 Fcb.reset = true ∧
    Condition.malformedFrame.raisedBy 0x100000#24 Fcb.reset = true ∧
    Condition.crcMismatch.raisedBy 0x030000#24 Fcb.reset = true := by decide
theorem witness_IdempotentCommands : (rom 0x03#8 = .count8 ∨ rom 0x03#8 = .count16) ∧ (0x00#8 : Byte) ≠ 0x01#8 := by
  decide
/-- Also for `InterleavingOfUnitsIsFree`, whose two lists may be these. -/
theorem witness_UnitsAreIndependent : (∃ t, step (facing busy [sent 0x110034#24]) = .next t) ∧
    (∃ t, step (facing { busy with crc := 0#16 } [sent 0x110034#24]) = .next t) ∧
    busy.sameClassifier { busy with crc := 0#16 } ∧ busy.sameCrcUnit { Fcb.reset with crc := 0xCDC5#16, matched := true, checked := true } ∧
    [sent 0x020001#24, sent 0x100003#24].filter (fun a => !a.leavesCrc) =
      [sent 0x100018#24, sent 0x020001#24].filter (fun a => !a.leavesCrc) ∧
    [sent 0x020001#24, sent 0x100003#24].filter (fun a => !a.leavesClassifier) =
      [sent 0x100003#24, sent 0x0200FF#24].filter (fun a => !a.leavesClassifier) :=
  ⟨⟨_, rfl⟩, ⟨_, rfl⟩, by decide⟩
theorem witness_AssemblingTheListedText : commandText .nop = some ['N', 'O', 'P'] := by decide

end Sys2Proof.Tests
end

section
/-! SUPPORT. What a host action does to the block, said once for every later statement about a step's effect: one
constructor per command of R51, the illegal word (R53), the read (R38) and the reset event (R97). -/

namespace Sys2Proof.Machine

/-- The block before and after a command (R61 to R63, R70 to R72, R78 to R80). -/
inductive CommandEffect : Instr → Fcb → Fcb → Prop where
  | nop {S : Fcb} : CommandEffect .nop S S
  | crcInit {S : Fcb} : CommandEffect .crcInit S (S.loadCrc Config.crcSeed)
  | crcByte {S : Fcb} {b : Byte} : CommandEffect (.crcByte b) S (S.loadCrc (crcStep8 S.crc b))
  | crcCheck {S : Fcb} {lo hi : Byte} : CommandEffect (.crcCheck lo hi) S (S.checkCrc (imm16 lo hi))
  | clsStart {S : Fcb} {fc : Byte} : CommandEffect (.clsStart fc) S (S.startClass fc (rom fc))
  | clsHdr {S : Fcb} {b : Byte} (inPhase : S.phase = .waitHdr) : CommandEffect (.clsHdr b) S (S.takeHeader b)
  | clsHdrOutOfPhase {S : Fcb} {b : Byte} (outOfPhase : S.phase ≠ .waitHdr) :
      CommandEffect (.clsHdr b) S (S.setError .seq)
  | clsClear {S : Fcb} : CommandEffect .clsClear S S.clearClassifier
  | errClear {S : Fcb} : CommandEffect .errClear S S.clearErrors
  | softReset {S : Fcb} : CommandEffect .softReset S Fcb.reset

/-- The block before and after a host action (R9, R35). -/
inductive ActionEffect : HostAction → Fcb → Fcb → Prop where
  | command {w : CmdWord} {i : Instr} {S T : Fcb} (decoded : decode w = some i) (effect : CommandEffect i S T) :
      ActionEffect (.command w) S T
  | illegal {w : CmdWord} {S : Fcb} (undecoded : decode w = none) : ActionEffect (.command w) S (S.setError .ill)
  | read {a : RegAddr} {S : Fcb} : ActionEffect (.read a) S S
  | reset {S : Fcb} : ActionEffect .reset S Fcb.reset

/-- The meaning of a decoded command has the effect of its constructor. -/
theorem exec_commandEffect {w : CmdWord} {i : Instr} {s t : State} (hd : decode w = some i) (h : exec i s = .next t) :
    CommandEffect i s.fcb t.fcb := by
  rcases decode_cases hd with rfl | rfl | rfl | rfl | rfl | rfl | rfl | rfl | rfl <;> cases h
  · exact .nop
  · exact .crcInit
  · exact .crcByte
  · exact .crcCheck
  · exact .clsStart
  · by_cases hp : s.fcb.phase = .waitHdr
    · simpa [hp] using CommandEffect.clsHdr hp
    · simpa [hp] using CommandEffect.clsHdrOutOfPhase hp
  · exact .clsClear
  · exact .errClear
  · exact .softReset

/-- A step has the effect of the action at the head of the list. -/
theorem step_actionEffect {s t : State} {a : HostAction} {rest : List HostAction} (hp : s.pending = a :: rest)
    (h : step s = .next t) : ActionEffect a s.fcb t.fcb := by
  rcases step_cases h with ⟨hs, -⟩ | ⟨w, r, i, hs, hd, he⟩ | ⟨w, r, hs, hd, rfl⟩ | ⟨b, r, hs, rfl⟩ | ⟨r, hs, rfl⟩ <;>
    cases hp.symm.trans hs
  · exact .command hd (exec_commandEffect (s := { s with pending := rest }) hd he)
  · exact .illegal hd
  · exact .read
  · exact .reset

/-- An action that performs an instruction has that instruction's effect. -/
theorem ActionEffect.of_instr {a : HostAction} {i : Instr} {S T : Fcb} (e : ActionEffect a S T)
    (hi : a.instr = some i) : CommandEffect i S T := by
  cases e with
  | command hd e =>
    cases hd.symm.trans hi
    exact e
  | illegal hd => cases hd.symm.trans hi
  | read => cases hi
  | reset => cases hi

/-- A reset event is performed as one step (R97). -/
theorem step_reset {s : State} {rest : List HostAction} (hp : s.pending = .reset :: rest) :
    step s = .next { s with pending := rest, fcb := Fcb.reset } := by
  simp [step, fetch, hp, execReset, State.onBlock]

/-- A read is performed as one step that leaves the block alone (R38). -/
theorem step_read {s : State} {a : RegAddr} {rest : List HostAction} (hp : s.pending = .read a :: rest) :
    step s = .next { s with pending := rest, reads := s.reads ++ [(a, regRead a s.fcb)] } := by
  simp [step, fetch, hp, execRead]

end Sys2Proof.Machine
end

section
/-! SUPPORT. The fields of the packed registers STATUS (R27) and CLS_INFO (R28), and the reserved read addresses (R29). -/

namespace Sys2Proof.Machine

/-- A bit above the low part of two packed fields. -/
theorem getLsbD_append_of_le {v w i : Nat} {x : BitVec v} {y : BitVec w} (h : w ≤ i) :
    (x ++ y).getLsbD i = x.getLsbD (i - w) := by
  rw [BitVec.getLsbD_append, if_neg (Nat.not_lt.mpr h)]

/-- A one-bit field at the low end of a packed word. -/
theorem getLsbD_append_ofBool {v : Nat} {x : BitVec v} {b : Bool} : (x ++ BitVec.ofBool b).getLsbD 0 = b := by
  rw [BitVec.getLsbD_append]
  simp

/-- MATCH of STATUS (R27). -/
theorem statusWord_matched (S : Fcb) : (statusWord S).getLsbD 0 = S.matched :=
  getLsbD_append_ofBool

/-- CHECKED of STATUS (R27). -/
theorem statusWord_checked (S : Fcb) : (statusWord S).getLsbD 1 = S.checked := by
  unfold statusWord
  repeat rw [getLsbD_append_of_le (by decide)]
  exact getLsbD_append_ofBool

/-- MALFORMED of STATUS (R27). -/
theorem statusWord_malformed (S : Fcb) : (statusWord S).getLsbD 4 = S.malformed := by
  unfold statusWord
  repeat rw [getLsbD_append_of_le (by decide)]
  exact getLsbD_append_ofBool

/-- ERR_SEQ of STATUS (R27). -/
theorem statusWord_errSeq (S : Fcb) : (statusWord S).getLsbD 5 = S.errSeq := by
  unfold statusWord
  repeat rw [getLsbD_append_of_le (by decide)]
  exact getLsbD_append_ofBool

/-- ERR_ILL of STATUS (R27). -/
theorem statusWord_errIll (S : Fcb) : (statusWord S).getLsbD 6 = S.errIll := by
  unfold statusWord
  repeat rw [getLsbD_append_of_le (by decide)]
  exact getLsbD_append_ofBool

/-- PHASE of STATUS (R27). -/
@[simp] theorem statusWord_phase (S : Fcb) : (statusWord S).extractLsb' 2 2 = S.phase.code := by
  unfold statusWord
  repeat rw [BitVec.extractLsb'_append_eq_of_le (by decide)]
  exact BitVec.extractLsb'_append_eq_right

/-- The unlisted bits of STATUS (R27). -/
@[simp] theorem statusWord_reserved (S : Fcb) : (statusWord S).extractLsb' 7 25 = 0#25 := by
  unfold statusWord
  repeat rw [BitVec.extractLsb'_append_eq_of_le (by decide)]
  exact BitVec.extractLsb'_eq_self

/-- CLASS of CLS_INFO (R28). -/
@[simp] theorem clsInfoWord_class (S : Fcb) : (clsInfoWord S).extractLsb' 0 3 = S.cls.code :=
  BitVec.extractLsb'_append_eq_right

/-- HBC of CLS_INFO (R28). -/
@[simp] theorem clsInfoWord_hbc (S : Fcb) : (clsInfoWord S).extractLsb' 3 2 = S.hbc := by
  unfold clsInfoWord
  rw [BitVec.extractLsb'_append_eq_of_le (by decide)]
  exact BitVec.extractLsb'_append_eq_right

/-- NEED of CLS_INFO (R28). -/
@[simp] theorem clsInfoWord_need (S : Fcb) : (clsInfoWord S).extractLsb' 5 2 = S.need := by
  unfold clsInfoWord
  repeat rw [BitVec.extractLsb'_append_eq_of_le (by decide)]
  exact BitVec.extractLsb'_append_eq_right

/-- The unlisted bits of CLS_INFO (R28). -/
@[simp] theorem clsInfoWord_reserved (S : Fcb) : (clsInfoWord S).extractLsb' 7 25 = 0#25 := by
  unfold clsInfoWord
  repeat rw [BitVec.extractLsb'_append_eq_of_le (by decide)]
  exact BitVec.extractLsb'_eq_self

/-- The reserved addresses read 0 (R29, R38). -/
theorem regRead_reserved {a : RegAddr} (h : 0xA ≤ a.toNat) (S : Fcb) : regRead a S = 0#32 := by
  unfold regRead
  split
  case h_11 => rfl
  all_goals omega

/-- The reset column of R29. -/
theorem regRead_reset (a : RegAddr) : regRead a Fcb.reset =
    if a = 0x0#4 then 0x0000FFFF#32 else if a = 0x1#4 ∨ a = 0x2#4 then 0x000000FF#32 else 0#32 := by
  revert a
  decide

end Sys2Proof.Machine
end

section
/-! SUPPORT. How long a check result and a sticky error flag last (R15, R16, R25, R26): an action sets the field, clears
it or leaves it, and which actions set and clear it. -/

namespace Sys2Proof.Machine

/-- The actions that clear `match` and `checked` (R15, R16). -/
abbrev HostAction.ClearsCheck (a : HostAction) : Prop :=
  a = .reset ∨ a.instr = some .crcInit ∨ a.instr = some .softReset ∨ ∃ b, a.instr = some (.crcByte b)

/-- The actions that clear the sticky error flags (R25, R26). -/
abbrev HostAction.ClearsErrors (a : HostAction) : Prop :=
  a = .reset ∨ a.instr = some .errClear ∨ a.instr = some .softReset

variable {a : HostAction} {S T : Fcb}

/-- `CRC_CHECK` records its comparison (R63). -/
theorem ActionEffect.check_of_crcCheck {lo hi : Byte} (e : ActionEffect a S T)
    (ha : a.instr = some (.crcCheck lo hi)) :
    T.matched = decide (S.crc = hi ++ lo) ∧ T.checked = true := by
  cases e.of_instr ha
  exact ⟨rfl, rfl⟩

/-- A write of `crc` or a reset clears the check result (R15, R16). -/
theorem ActionEffect.check_of_clearsCheck (e : ActionEffect a S T) (ha : a.ClearsCheck) :
    T.matched = false ∧ T.checked = false := by
  rcases ha with rfl | hi | hi | ⟨b, hi⟩
  · cases e
    exact ⟨rfl, rfl⟩
  all_goals
    cases e.of_instr hi
    exact ⟨rfl, rfl⟩

/-- Every other action keeps the check result (R15, R16). -/
theorem ActionEffect.check_kept (e : ActionEffect a S T) (hcheck : ∀ lo hi, a.instr ≠ some (.crcCheck lo hi))
    (hclear : ¬ a.ClearsCheck) : T.matched = S.matched ∧ T.checked = S.checked := by
  cases e with
  | command hd e =>
    cases e with
    | crcCheck => exact absurd hd (hcheck _ _)
    | crcInit => exact absurd (.inr (.inl hd)) hclear
    | softReset => exact absurd (.inr (.inr (.inl hd))) hclear
    | crcByte => exact absurd (.inr (.inr (.inr ⟨_, hd⟩))) hclear
    | _ => simp
  | reset => exact absurd (.inl rfl) hclear
  | illegal | read => simp

/-- `ERR_CLEAR` or a reset clears both flags (R79, R97). -/
theorem ActionEffect.errors_of_clearsErrors (e : ActionEffect a S T) (ha : a.ClearsErrors) :
    T.errSeq = false ∧ T.errIll = false := by
  rcases ha with rfl | hi | hi
  · cases e
    exact ⟨rfl, rfl⟩
  all_goals
    cases e.of_instr hi
    exact ⟨rfl, rfl⟩

/-- Without a clearing action, ERR_SEQ is up after the action when it was up before or a header byte came out of phase
(R25, R71). -/
theorem ActionEffect.errSeq_iff (e : ActionEffect a S T) (hclear : ¬ a.ClearsErrors) :
    T.errSeq = true ↔ S.errSeq = true ∨ (∃ b, a.instr = some (.clsHdr b)) ∧ S.phase ≠ .waitHdr := by
  cases e with
  | command hd e =>
    cases e with
    | clsHdr inPhase => simp [inPhase]
    | clsHdrOutOfPhase outOfPhase => simp [HostAction.instr, hd, outOfPhase]
    | errClear => exact absurd (.inr (.inl hd)) hclear
    | softReset => exact absurd (.inr (.inr hd)) hclear
    | _ => simp [HostAction.instr, hd]
  | illegal hd => simp [HostAction.instr, hd]
  | read => simp [HostAction.instr]
  | reset => exact absurd (.inl rfl) hclear

/-- Without a clearing action, ERR_ILL is up after the action when it was up before or the action is an illegal word
(R26, R53). -/
theorem ActionEffect.errIll_iff (e : ActionEffect a S T) (hclear : ¬ a.ClearsErrors) :
    T.errIll = true ↔ S.errIll = true ∨ ∃ w, a = .command w ∧ decode w = none := by
  cases e with
  | command hd e =>
    cases e with
    | errClear => exact absurd (.inr (.inl hd)) hclear
    | softReset => exact absurd (.inr (.inr hd)) hclear
    | _ => simp [hd]
  | illegal hd => simp [hd]
  | read => simp
  | reset => exact absurd (.inl rfl) hclear

end Sys2Proof.Machine
end

section
/-! SUPPORT. The statements about the state and its read port (10_state.md). -/

namespace Sys2Proof.Machine

/-- Settles O13, field by field of the two packed registers. -/
theorem statusAndInfoLayouts : Obligations.StatusAndInfoLayouts := by
  unfold Obligations.StatusAndInfoLayouts
  intro S
  exact ⟨statusWord_matched S, statusWord_checked S, statusWord_phase S, statusWord_malformed S,
    statusWord_errSeq S, statusWord_errIll S, statusWord_reserved S, clsInfoWord_class S, clsInfoWord_hbc S,
    clsInfoWord_need S, clsInfoWord_reserved S⟩

/-- Settles O28: the action's effect writes, clears or keeps the check result. -/
theorem checkResultLifetime : Obligations.CheckResultLifetime := by
  unfold Obligations.CheckResultLifetime
  refine ⟨fun s t a rest hp h => ?_, fun S => ⟨statusWord_matched S, statusWord_checked S⟩⟩
  have e := step_actionEffect hp h
  refine ⟨fun lo hi => e.check_of_crcCheck, e.check_of_clearsCheck, fun hcheck hreset hinit hsoft hbyte => ?_⟩
  exact e.check_kept hcheck (by simp [hreset, hinit, hsoft, hbyte])

/-- Settles O54: from what sets a flag, what clears it, and that it is kept otherwise. -/
theorem stickyErrorFlags : Obligations.StickyErrorFlags := by
  unfold Obligations.StickyErrorFlags
  refine ⟨fun s t a rest hp h => ?_, fun S => ⟨statusWord_errSeq S, statusWord_errIll S⟩⟩
  have e := step_actionEffect hp h
  refine ⟨?_, ?_, e.errors_of_clearsErrors, ?_, ?_, ?_⟩
  · rintro ⟨⟨b, ha⟩, hphase⟩
    have hclear : ¬ a.ClearsErrors := by
      rintro (rfl | hi | hi)
      · cases ha
      all_goals cases ha.symm.trans hi
    exact (e.errSeq_iff hclear).2 (.inr ⟨⟨b, ha⟩, hphase⟩)
  · rintro ⟨w, rfl, hw⟩
    exact (e.errIll_iff (by simp [HostAction.instr, hw])).2 (.inr ⟨w, rfl, hw⟩)
  · intro hset ht
    have hclear : ¬ a.ClearsErrors := fun hc => by simp [(e.errors_of_clearsErrors hc).1] at ht
    exact ((e.errSeq_iff hclear).1 ht).resolve_right hset
  · intro hset ht
    have hclear : ¬ a.ClearsErrors := fun hc => by simp [(e.errors_of_clearsErrors hc).2] at ht
    exact ((e.errIll_iff hclear).1 ht).resolve_right hset
  · intro hreset herr hsoft
    have hclear : ¬ a.ClearsErrors := by simp [hreset, herr, hsoft]
    exact ⟨fun hs => (e.errSeq_iff hclear).2 (.inl hs), fun hs => (e.errIll_iff hclear).2 (.inl hs)⟩

/-- Settles O12, address by address; the reset column by evaluating all 16 addresses. -/
theorem registerMap : Obligations.RegisterMap := by
  unfold Obligations.RegisterMap
  refine ⟨fun S => ?_, regRead_reset, fun s a rest hp => ⟨_, step_read hp, rfl⟩⟩
  exact ⟨regRead_crc S, regRead_crcLo S, regRead_crcHi S, regRead_status S, regRead_fc S, regRead_info S,
    regRead_count S, regRead_total S, regRead_remain S, regRead_crclen S, fun a h => regRead_reserved h S⟩

/-- Settles O17: all three ways into reset leave `Fcb.reset`, whose fields are the reset values. -/
theorem resetValues : Obligations.ResetValues := by
  unfold Obligations.ResetValues
  exact ⟨rfl, fun s rest hp => ⟨_, step_reset hp, rfl⟩, fun s => ⟨_, rfl, rfl⟩⟩

end Sys2Proof.Machine
end

section
/-! SUPPORT. The statements about the ports (20_memory.md), and what a command leaves of the host's side. -/

namespace Sys2Proof.Machine

/-- No instruction touches the host's lists: its meaning is an operation on the block. -/
theorem exec_hostSide {i : Instr} {s t : State} (h : exec i s = .next t) :
    t.pending = s.pending ∧ t.reads = s.reads := by
  obtain ⟨f, hf⟩ := exec_onBlock i
  cases (hf s).symm.trans h
  exact ⟨rfl, rfl⟩

/-- A command word, legal or not, is taken off the list, and the data of earlier reads stay (R9, R53). -/
theorem step_command_hostSide {s t : State} {w : CmdWord} {rest : List HostAction}
    (hp : s.pending = .command w :: rest) (h : step s = .next t) : t.pending = rest ∧ t.reads = s.reads := by
  rcases step_cases h with ⟨hs, -⟩ | ⟨w', r, i, hs, -, he⟩ | ⟨w', r, hs, -, rfl⟩ | ⟨a, r, hs, rfl⟩ | ⟨r, hs, rfl⟩ <;>
    cases hp.symm.trans hs
  · exact exec_hostSide he
  · exact ⟨rfl, rfl⟩

/-- Settles O11: a read leaves the block alone, so a second read answers from the same block. -/
theorem readPortIsSideEffectFree : Obligations.ReadPortIsSideEffectFree := by
  unfold Obligations.ReadPortIsSideEffectFree
  refine ⟨fun s a rest hp => ⟨_, step_read hp, rfl, rfl⟩, fun s w a rest t hp h => ?_,
    fun a S ha => regRead_reserved ha S⟩
  obtain ⟨htp, htr⟩ := step_command_hostSide hp h
  exact ⟨_, _, step_read htp, step_read rfl, rfl, by simp [htr]⟩

end Sys2Proof.Machine
end

section
/-! SUPPORT. The statements about encodings (30_encoding.md). The rows of R51 and the entries of R56 are pairwise apart, so
a word decodes to exactly what the one row it matches builds. -/

namespace Sys2Proof

/-- Where two rows ask different values of a bit that both test, a word that matches one does not match the other. -/
theorem and_mask_ne_of_apart {n : Nat} {mask pattern mask' pattern' w : BitVec n}
    (apart : pattern &&& mask' ≠ pattern' &&& mask) (h : w &&& mask = pattern) : w &&& mask' ≠ pattern' := by
  rintro rfl
  subst h
  exact apart (by ac_rfl)

/-- Where no two members of a list pass a test together, the first to pass it is any that passes it. -/
theorem find?_eq_some_iff_of_pairwise {α : Type} {p : α → Bool} {rows : List α}
    (exclusive : rows.Pairwise fun r r' => p r = true → p r' = false) {r : α} :
    rows.find? p = some r ↔ r ∈ rows ∧ p r = true := by
  refine ⟨fun h => ⟨List.mem_of_find?_eq_some h, List.find?_some h⟩, ?_⟩
  rintro ⟨hmem, hr⟩
  induction exclusive with
  | nil => cases hmem
  | cons first _ ih =>
    rcases List.mem_cons.1 hmem with rfl | hmem
    · exact List.find?_cons_of_pos hr
    · rw [List.find?_cons_of_neg (fun hfirst => by simp [first _ hmem hfirst] at hr)]
      exact ih hmem

/-- "The rows do not overlap" (R51). -/
theorem cmdRows_apart : cmdRows.Pairwise fun r r' => r.pattern &&& r'.mask ≠ r'.pattern &&& r.mask := by
  decide

/-- The entries of the function-code ROM do not overlap (R56). -/
theorem romRows_apart : romRows.Pairwise fun r r' => r.pattern &&& r'.mask ≠ r'.pattern &&& r.mask := by
  decide

/-- A command word decodes to what a row that it matches builds (R51). -/
theorem decode_eq_some_iff {w : CmdWord} {i : Instr} :
    decode w = some i ↔ ∃ r ∈ cmdRows, w &&& r.mask = r.pattern ∧ r.build w = i := by
  have exclusive : cmdRows.Pairwise fun r r' =>
      (w &&& r.mask == r.pattern) = true → (w &&& r'.mask == r'.pattern) = false :=
    cmdRows_apart.imp fun apart h => by simpa using and_mask_ne_of_apart apart (by simpa using h)
  simp [decode, find?_eq_some_iff_of_pairwise exclusive, and_assoc]

/-- A function code selects what a ROM entry that it matches builds (R56). -/
theorem decodeRom_eq_some_iff {fc : Byte} {i : Instr} :
    decodeRom fc = some i ↔ ∃ r ∈ romRows, fc &&& r.mask = r.pattern ∧ r.build fc = i := by
  have exclusive : romRows.Pairwise fun r r' =>
      (fc &&& r.mask == r.pattern) = true → (fc &&& r'.mask == r'.pattern) = false :=
    romRows_apart.imp fun apart h => by simpa using and_mask_ne_of_apart apart (by simpa using h)
  simp [decodeRom, find?_eq_some_iff_of_pairwise exclusive, and_assoc]

/-- The whole operand is its two bytes (R49). -/
theorem CmdWord.imm16_eq_hi_append_lo (w : CmdWord) : w.imm16 = w.hi ++ w.lo :=
  (BitVec.extractLsb'_append_extractLsb'_eq_extractLsb' (x := w) (start₁ := 0) (len₁ := 8) (len₂ := 8)
    (Nat.zero_add 8).symm).symm

/-- Settles O1: a command by its packed fields, a ROM entry of one code by evaluation, a ROM entry of several codes
because a well-formed code matches its row. -/
theorem decodeEncodeRoundTrip : Obligations.DecodeEncodeRoundTrip := by
  unfold Obligations.DecodeEncodeRoundTrip
  intro i hw
  cases i with
  | crcByte | crcCheck | clsStart | clsHdr => simp [encode, decodeWord, decode_pack]
  | fc1A1B | fc1C1F | fc203F | fc407F | fc80FF =>
    simpa [encode, decodeWord, decodeRom_eq_some_iff, romRows, romRows00, romRows08, romRows10, romRows18,
      Instr.wellFormed] using hw
  | _ => rfl

/-- Settles O3: of the nine rows only the command's own builds it, and its operands are the fields that row reads. -/
theorem commandEncodings : Obligations.CommandEncodings := by
  unfold Obligations.CommandEncodings
  intro w
  have hlo : w.extractLsb' 0 8 = w.lo := rfl
  have hpair (lo hi : Byte) : hi ++ lo = w.extractLsb' 0 16 ↔ w.lo = lo ∧ w.hi = hi := by
    rw [show w.extractLsb' 0 16 = w.hi ++ w.lo from w.imm16_eq_hi_append_lo, Machine.pair_inj, and_comm, eq_comm,
      @eq_comm _ hi]
  simp [decode_eq_some_iff, cmdRows, hlo, hpair, @eq_comm _ _ w.lo]

/-- The nine assigned opcodes (R51, R52). -/
def assignedOpcodes : List Byte := [0x00#8, 0x01#8, 0x02#8, 0x03#8, 0x10#8, 0x11#8, 0x12#8, 0x30#8, 0x3F#8]

/-- The illegal words by their fields (R52). -/
theorem decode_eq_none_iff (w : CmdWord) : decode w = none ↔
    w.op ∉ assignedOpcodes ∨
    (w.op ∈ [0x00#8, 0x01#8, 0x12#8, 0x30#8, 0x3F#8] ∧ w.imm16 ≠ 0#16) ∨
    (w.op ∈ [0x02#8, 0x10#8, 0x11#8] ∧ w.hi ≠ 0#8) := by
  have himm : w.imm16 = 0#16 ↔ w.hi = 0#8 ∧ w.lo = 0#8 := by
    rw [w.imm16_eq_hi_append_lo, show 0#16 = 0#8 ++ 0#8 from rfl, Machine.pair_inj]
  have hd := decode_pack w.op w.hi w.lo
  rw [w.pack_fields] at hd
  rw [hd, ne_eq, himm]
  by_cases hop : w.op ∈ assignedOpcodes
  · simp only [assignedOpcodes, List.mem_cons, List.not_mem_nil, or_false] at hop
    rcases hop with h | h | h | h | h | h | h | h | h <;> simp [h, assignedOpcodes]
  · have hother : ∀ op ∈ assignedOpcodes, w.op ≠ op := fun op hmem h => hop (h ▸ hmem)
    simp only [assignedOpcodes, List.forall_mem_cons] at hother
    simp [hop, hother]

end Sys2Proof

namespace Sys2Proof.Machine

/-- An illegal word is performed as one step that sets ERR_ILL alone (R53). -/
theorem step_illegal {s : State} {w : CmdWord} {rest : List HostAction} (hp : s.pending = .command w :: rest)
    (hd : decode w = none) : step s = .next { s with pending := rest, fcb := s.fcb.setError .ill } := by
  simp [step, fetch, hp, hd, execIllegal, State.onBlock]

/-- Settles O4: the illegal words by their fields, the count by evaluating all 256 opcodes, and the step of an illegal
word. -/
theorem illegalWords : Obligations.IllegalWords := by
  unfold Obligations.IllegalWords
  exact ⟨decode_eq_none_iff, by decide +kernel, fun w hd s rest hp => ⟨_, step_illegal hp hd, rfl⟩⟩

/-- The class of listed function codes, from the class of each. -/
theorem rom_of_toNat_mem {codes : List Nat} {c : FrameClass} {fc : Byte}
    (hcodes : ∀ n ∈ codes, rom (BitVec.ofNat 8 n) = c) (h : fc.toNat ∈ codes) : rom fc = c := by
  simpa using hcodes fc.toNat h

/-- Bit 7 of a function code splits the codes at 0x80 (R56). -/
theorem getLsbD_seven_eq_decide (fc : Byte) : fc.getLsbD 7 = decide (0x80 ≤ fc.toNat) :=
  fc.msb_eq_getLsbD_last.symm.trans fc.msb_eq_decide

/-- The codes from 0x80 on are exceptions (R56). -/
theorem rom_of_high {fc : Byte} (h : 0x80 ≤ fc.toNat) : rom fc = .exception := by
  unfold rom
  rw [getLsbD_seven_eq_decide, decide_eq_true h, if_pos rfl]

/-- Every code with another class than UNKNOWN is at most 0x18 or at least 0x80 (R56). -/
theorem rom_of_between {fc : Byte} (hlow : 0x19 ≤ fc.toNat) (hhigh : fc.toNat ≤ 0x7F) : rom fc = .unknown := by
  have hbit : fc.getLsbD 7 = false := by
    rw [getLsbD_seven_eq_decide]
    exact decide_eq_false (by omega)
  have hne (code : Byte) (hcode : code.toNat ≤ 0x18) : fc ≠ code := by
    rintro rfl
    omega
  unfold rom
  rw [hbit]
  simp [hne]

/-- Settles O6: the listed codes one by one, the two ranges by their bounds, the counts by evaluating all 256 codes. -/
theorem romIsTheSourcesTable : Obligations.RomIsTheSourcesTable := by
  unfold Obligations.RomIsTheSourcesTable
  refine ⟨fun fc => ⟨?_, ?_, ?_, ?_, rom_of_high, ?_⟩, by decide +kernel, rfl, rfl, rfl, rfl, rfl, rfl⟩
  · exact rom_of_toNat_mem (by decide)
  · exact rom_of_toNat_mem (by decide)
  · exact rom_of_toNat_mem (by decide)
  · exact fun h => rom_of_toNat_mem (codes := [0x18]) (by decide) (by simp [h])
  · rintro (h | ⟨hlow, hhigh⟩)
    · exact rom_of_toNat_mem (by decide) h
    · exact rom_of_between hlow hhigh

end Sys2Proof.Machine
end

section
/-! SUPPORT. The legal and illegal words of one opcode (R52), written as its opcode and operand, and runs of several
instructions. -/

namespace Sys2Proof

/-- The opcode of a word written as its opcode and whole operand (R49). -/
theorem CmdWord.append_op (op : Byte) (imm : Half) : CmdWord.op (op ++ imm) = op :=
  (BitVec.extractLsb'_append_eq_of_le (by decide)).trans BitVec.extractLsb'_eq_self

/-- The operand of a word written as its opcode and whole operand (R49). -/
theorem CmdWord.append_imm16 (op : Byte) (imm : Half) : CmdWord.imm16 (op ++ imm) = imm :=
  BitVec.extractLsb'_append_eq_right

end Sys2Proof

namespace Sys2Proof.Machine

/-- Every operand of `CRC_CHECK` is legal (R52, R63). -/
theorem decode_crcCheck_isSome (imm : Half) : (decode (0x03#8 ++ imm)).isSome = true := by
  rw [Option.isSome_iff_ne_none, ne_eq, decode_eq_none_iff, CmdWord.append_op]
  simp [assignedOpcodes]

/-- An illegal word is performed as `set_error(ERR_ILL)` (R53). -/
theorem performedAsIllegal_of_decode_eq_none {w : CmdWord} (h : decode w = none) : performedAsIllegal w :=
  fun _ _ hp => ⟨_, step_illegal hp h, rfl⟩

/-- A command without an operand is illegal with one (R52). -/
theorem performedAsIllegal_of_operand_ne_zero {op : Byte} (hop : op ∈ [0x00#8, 0x01#8, 0x12#8, 0x30#8, 0x3F#8])
    {imm : Half} (himm : imm ≠ 0#16) : performedAsIllegal (op ++ imm) := by
  apply performedAsIllegal_of_decode_eq_none
  rw [decode_eq_none_iff, CmdWord.append_op, CmdWord.append_imm16]
  exact .inr (.inl ⟨hop, himm⟩)

/-- A command with a one-byte operand is illegal with a high byte (R52). -/
theorem performedAsIllegal_of_hi_ne_zero {op : Byte} (hop : op ∈ [0x02#8, 0x10#8, 0x11#8])
    {hi : Byte} (hhi : hi ≠ 0#8) (b : Byte) : performedAsIllegal (op ++ hi ++ b) := by
  change performedAsIllegal (CmdWord.pack op hi b)
  apply performedAsIllegal_of_decode_eq_none
  rw [decode_eq_none_iff, CmdWord.pack_op, CmdWord.pack_hi]
  exact .inr (.inr ⟨hop, hhi⟩)

/-- A program whose first instruction goes on is run from the state that instruction leaves. -/
theorem execAll_cons {i : Instr} {is : List Instr} {s t : State} (h : exec i s = .next t) :
    execAll (i :: is) s = execAll is t := by
  simp only [execAll, h]

/-- A program that runs through is followed by the next from the state it leaves. -/
theorem execAll_append {is js : List Instr} {s t : State} (h : execAll is s = .next t) :
    execAll (is ++ js) s = execAll js t := by
  induction is generalizing s with
  | nil =>
    cases h
    rfl
  | cons i is ih =>
    obtain ⟨f, hf⟩ := exec_onBlock i
    rw [execAll_cons (hf s)] at h
    rw [List.cons_append, execAll_cons (hf s), ih h]

end Sys2Proof.Machine
end

section
/-! SUPPORT. The CRC function over a byte range (R60), the received pair (R50), and what the CRC commands do (R61 to R63,
R58). -/

namespace Sys2Proof.Machine

/-- The CRC of one more byte is one more `crc_step8` (R60). -/
theorem crcOf_append_singleton (bytes : List Byte) (d : Byte) : crcOf (bytes ++ [d]) = crcStep8 (crcOf bytes) d :=
  List.foldl_append

/-- `crc16` answers exactly where the range lies in the buffer (R60). -/
theorem crc16_isSome (buf : List Byte) (off len : Nat) :
    (crc16 buf off len).isSome = true ↔ off + len ≤ buf.length := by
  unfold crc16
  split <;> simp [*]

/-- Where the range lies in the buffer, `crc16` is the CRC of its bytes as (crc-lo, crc-hi) (R60). -/
theorem crc16_of_le {buf : List Byte} {off len : Nat} (h : off + len ≤ buf.length) :
    crc16 buf off len =
      some (crcLo (crcOf ((buf.drop off).take len)), crcHi (crcOf ((buf.drop off).take len))) :=
  if_pos h

/-- A range of one more byte, when the buffer holds that byte. -/
theorem take_succ_drop_of_getElem? {buf : List Byte} {off len : Nat} {d : Byte} (hd : buf[off + len]? = some d) :
    (buf.drop off).take (len + 1) = (buf.drop off).take len ++ [d] := by
  rw [List.take_add_one, List.getElem?_drop, hd, Option.toList_some]

/-- A 16-bit value is a given pair when its low and high bytes are (R50). -/
theorem eq_pair_iff {c : Half} {lo hi : Byte} : c = hi ++ lo ↔ c.extractLsb' 0 8 = lo ∧ c.extractLsb' 8 8 = hi := by
  rw [and_comm, ← pair_inj, pair_of_bytes]

/-- `CRC_INIT` (R61). -/
theorem exec_crcInit (s : State) : exec .crcInit s = .next (s.onBlock (Fcb.loadCrc 0xFFFF#16)) := rfl

/-- `CRC_BYTE b` (R62). -/
theorem exec_crcByte (b : Byte) (s : State) :
    exec (.crcByte b) s = .next (s.onBlock fun S => S.loadCrc (crcStep8 S.crc b)) := rfl

/-- `CRC_CHECK lo, hi` (R63). -/
theorem exec_crcCheck (lo hi : Byte) (s : State) :
    exec (.crcCheck lo hi) s = .next (s.onBlock (Fcb.checkCrc (hi ++ lo))) := rfl

/-- The recorded comparison (R63). -/
theorem crcMatches_eq_decide (crc pair : Half) : crcMatches crc pair = decide (crc = pair) := rfl

/-- Bytes absorbed one after another, from any value of `crc` (R62). -/
theorem execAll_map_crcByte (bytes : List Byte) (c : Half) (s : State) :
    execAll (bytes.map .crcByte) (s.onBlock (Fcb.loadCrc c)) =
      .next (s.onBlock (Fcb.loadCrc (bytes.foldl crcStep8 c))) := by
  induction bytes generalizing c with
  | nil => rfl
  | cons b bytes ih => exact (execAll_cons (exec_crcByte b _)).trans (ih (crcStep8 c b))

/-- `CRC_BLOCK` leaves the CRC of its bytes and no check result (R58, R60). -/
theorem execAll_crcBlock (bytes : List Byte) (s : State) :
    execAll (crcBlock bytes) s = .next (s.onBlock (Fcb.loadCrc (crcOf bytes))) :=
  (execAll_cons (exec_crcInit s)).trans (execAll_map_crcByte bytes _ s)

end Sys2Proof.Machine
end

section
/-! SUPPORT. The statements about the CRC function and the CRC commands (R60 to R63, 40_crc.md). -/

namespace Sys2Proof.Machine

/-- Settles O22: the pair that `crc16` answers determines the CRC of the range, and one more byte extends the range. -/
theorem crc16Contract : Obligations.Crc16Contract := by
  unfold Obligations.Crc16Contract
  refine ⟨fun buf off len => (crc16_isSome buf off len).symm, fun buf off h => ?_, ?_⟩
  · rw [crc16_of_le (by simpa using h), List.take_zero]
    rfl
  · intro buf off len lo hi d h hd
    have hlen : off + len < buf.length := (List.getElem?_eq_some_iff.1 hd).1
    rw [crc16_of_le hlen.le, Option.some_inj, Prod.mk.injEq] at h
    have hcrc : crcOf ((buf.drop off).take len) = hi ++ lo := eq_pair_iff.2 h
    rw [crc16_of_le hlen, take_succ_drop_of_getElem? hd, crcOf_append_singleton, hcrc]
    rfl

/-- Settles O25: each check compares the pair with the value of `crc` the commands before it left. -/
theorem crcCheckCompares : Obligations.CrcCheckCompares := by
  unfold Obligations.CrcCheckCompares
  refine ⟨fun _ _ => rfl, decode_crcCheck_isSome, fun s lo hi => ⟨_, exec_crcCheck lo hi s, rfl, ?_⟩,
    fun s lo hi lo' hi' => ?_, fun s lo hi => ?_, fun s => ?_⟩
  · simpa [crcMatches_eq_decide] using eq_pair_iff
  · exact ⟨_, (execAll_cons (exec_crcCheck lo hi s)).trans (execAll_cons (exec_crcCheck lo' hi' _)), rfl, rfl⟩
  · refine ⟨_, (execAll_cons (exec_crcInit s)).trans (execAll_cons (exec_crcCheck lo hi _)), ?_⟩
    simp [crcMatches_eq_decide, eq_comm]
  · have hcrc : crcOf [0x01#8, 0x03#8, 0x00#8, 0x00#8, 0x00#8, 0x0A#8] = 0xCDC5#16 := by decide +kernel
    refine ⟨_, _, (execAll_append (execAll_crcBlock _ s)).trans (execAll_cons (exec_crcCheck 0xC5#8 0xCD#8 _)), ?_,
      rfl, exec_crcCheck 0xCD#8 0xC5#8 _, ?_⟩
    all_goals
      rw [hcrc]
      rfl

/-- Settles O23: the effect of `CRC_INIT` does not depend on the earlier value of `crc` or of the check result. -/
theorem crcInitSeeds : Obligations.CrcInitSeeds := by
  unfold Obligations.CrcInitSeeds
  refine ⟨rfl, fun s => ⟨_, exec_crcInit s, rfl⟩, fun imm => performedAsIllegal_of_operand_ne_zero (by decide),
    fun s t h => ?_, rfl, fun s t h => ?_⟩ <;> cases (exec_crcInit s).symm.trans h
  · rfl
  · rw [regRead_crcLo, regRead_crcHi, State.onBlock_fcb, Fcb.loadCrc_crc]
    decide

/-- Settles O24, the corner values by evaluation. -/
theorem crcByteAbsorbs : Obligations.CrcByteAbsorbs := by
  unfold Obligations.CrcByteAbsorbs
  exact ⟨fun _ => rfl, fun s b => ⟨_, exec_crcByte b s, rfl⟩,
    fun hi b hhi => performedAsIllegal_of_hi_ne_zero (by decide) hhi b, by decide, by decide, by decide, by decide⟩

end Sys2Proof.Machine
end

section
/-! SUPPORT. What the classifier's commands do (R70 to R72), and the derived lengths where they are given and where they
are 0 (R73, R74). -/

namespace Sys2Proof.Machine

/-- `CLS_START fc` (R70). -/
theorem exec_clsStart (fc : Byte) (s : State) :
    exec (.clsStart fc) s = .next (s.onBlock (Fcb.startClass fc (rom fc))) := rfl

/-- `CLS_HDR b` out of phase (R71). -/
theorem exec_clsHdr_outOfPhase {b : Byte} {s : State} (h : s.fcb.phase ≠ .waitHdr) :
    exec (.clsHdr b) s = .next (s.onBlock (Fcb.setError .seq)) := by
  simp [exec, execClsHdr, State.onBlock, h]

/-- `CLS_CLEAR` (R72). -/
theorem exec_clsClear (s : State) : exec .clsClear s = .next (s.onBlock Fcb.clearClassifier) := rfl

/-- The classifier after `CLS_CLEAR` is the classifier after reset (R30, R72). -/
theorem Fcb.clearClassifier_sameClassifier_reset (S : Fcb) : S.clearClassifier.sameClassifier Fcb.reset := by
  simp [Fcb.sameClassifier]

/-- `CLS_START` field by field: whether the class asks for header bytes decides phase, total and malformed (R70). -/
theorem Fcb.startClass_eq (fc : Byte) (c : FrameClass) (S : Fcb) : S.startClass fc c = { S with
    fc := fc, cls := c, cnt := 0#16, hbc := 0#2, need := need0 c,
    phase := if 0 < (need0 c).toNat then .waitHdr else .done,
    total := if 0 < (need0 c).toNat then 0#17 else BitVec.ofNat 17 (frameLen c 0),
    malformed := if 0 < (need0 c).toNat then false else decide (c = .unknown) } := by
  by_cases h : need0 c = 0#2
  · rw [Fcb.startClass_of_no_header fc c S h, h]
    rfl
  · have hpos : 0 < (need0 c).toNat := Nat.pos_of_ne_zero fun h0 => h (BitVec.eq_of_toNat_eq h0)
    simp only [Fcb.startClass_of_header fc c S h, if_pos hpos]

/-- The length of a class that asks for no header byte does not depend on the count (R68, R70). -/
theorem frameLen_eq_of_no_header {c : FrameClass} (h : need0 c = 0#2) (n : Nat) : frameLen c n = frameLen c 0 := by
  cases c with
  | count8 | count16 => exact absurd h (by decide)
  | _ => rfl

/-- Every class but UNKNOWN has a byte after its header and room for the two CRC bytes: "every non-UNKNOWN
`total ≥ 2 + hbc + 1`" (R73). -/
theorem headerBytes_add_three_le_frameLen {c : FrameClass} (h : c ≠ .unknown) (n : Nat) :
    headerBytes c + 3 ≤ frameLen c n := by
  cases c <;> simp [headerBytes, frameLen] at h ⊢

section
variable {S : Fcb}

/-- The lengths are given in phase DONE for a class that is not UNKNOWN (R73, R74). -/
theorem Fcb.lengthKnown_iff : S.lengthKnown = true ↔ S.phase = .done ∧ S.malformed = false := by
  simp [Fcb.lengthKnown]

/-- `remain(S)` where it is given: the subtraction fits the register (R73). -/
theorem Fcb.remain_toNat (h : S.lengthKnown = true) : S.remain.toNat = S.total.toNat - 2 - S.hbc.toNat := by
  have := S.total.isLt
  rw [Fcb.remain, if_pos h, BitVec.toNat_ofNat]
  omega

/-- `crclen(S)` where it is given: the subtraction fits the register (R74). -/
theorem Fcb.crclen_toNat (h : S.lengthKnown = true) : S.crclen.toNat = S.total.toNat - 2 := by
  have := S.total.isLt
  rw [Fcb.crclen, if_pos h, BitVec.toNat_ofNat]
  omega

/-- Elsewhere both lengths are 0 (R73, R74). -/
theorem Fcb.lengths_eq_zero (h : ¬ S.lengthKnown = true) : S.remain = 0#17 ∧ S.crclen = 0#17 :=
  ⟨if_neg h, if_neg h⟩

/-- Where the invariants hold and the lengths are given, they are those of the class (R31, R73, R74). -/
theorem Fcb.Inv.lengths (inv : S.Inv) (h : S.lengthKnown = true) :
    S.cls ≠ .unknown ∧ S.total.toNat = frameLen S.cls S.cnt.toNat ∧ S.hbc.toNat = headerBytes S.cls := by
  obtain ⟨hdone, hformed⟩ := Fcb.lengthKnown_iff.1 h
  obtain ⟨-, -, -, invDone, -⟩ := inv
  obtain ⟨-, -, htotal, hhbc, hunknown⟩ := invDone hdone
  exact ⟨fun hc => by simp [hunknown.2 hc] at hformed, htotal, hhbc⟩

end

end Sys2Proof.Machine
end

section
/-! SUPPORT. The statements about the classifier's commands and its derived lengths (41_classifier.md). -/

namespace Sys2Proof.Machine

/-- Settles O36: the fields `CLS_START` writes depend on the class alone; the corner cases by evaluating the ROM at
their codes. -/
theorem clsStartLatches : Obligations.ClsStartLatches := by
  unfold Obligations.ClsStartLatches
  refine ⟨fun _ => rfl, fun s fc => ⟨_, exec_clsStart fc s, Fcb.startClass_eq fc (rom fc) s.fcb⟩,
    fun hi fc hhi => performedAsIllegal_of_hi_ne_zero (by decide) hhi fc,
    fun s => ⟨_, exec_clsStart _ s, rfl, rfl⟩, fun s fc hfc => ⟨_, exec_clsStart fc s, ?_⟩,
    fun s => ⟨_, exec_clsStart _ s, rfl⟩, fun c n hc => frameLen_eq_of_no_header hc n,
    fun s => ⟨_, exec_clsStart _ s, rfl, rfl, rfl, rfl⟩, fun s => ⟨_, exec_clsStart _ s, rfl, rfl, rfl⟩⟩
  rcases hfc with rfl | rfl <;> exact ⟨rfl, rfl⟩

/-- Settles O38: `CLS_CLEAR` leaves the classifier's reset values whatever they were, and IDLE is out of phase for a
header byte. -/
theorem clsClearReturnsToIdle : Obligations.ClsClearReturnsToIdle := by
  unfold Obligations.ClsClearReturnsToIdle
  refine ⟨rfl, fun s => ⟨_, exec_clsClear s, rfl⟩, fun imm => performedAsIllegal_of_operand_ne_zero (by decide),
    fun s t h => ?_, fun s b => ?_, fun s t h => ?_⟩
  · cases (exec_clsClear s).symm.trans h
    rfl
  · have houtOfPhase : (s.onBlock Fcb.clearClassifier).fcb.phase ≠ .waitHdr := by simp
    exact ⟨_, (execAll_cons (exec_clsClear s)).trans (execAll_cons (exec_clsHdr_outOfPhase houtOfPhase)), rfl⟩
  · cases (exec_clsClear s).symm.trans h
    exact Fcb.clearClassifier_sameClassifier_reset s.fcb

/-- Settles O47: in DONE the invariants give total and headerBytesConsumed by the class's length rule, from which the
derived lengths are exact differences. -/
theorem remainAndCrcLength : Obligations.RemainAndCrcLength := by
  unfold Obligations.RemainAndCrcLength
  intro S inv
  refine ⟨fun hdone hformed => ?_, fun h => ?_, regRead_remain S, regRead_crclen S⟩
  · have hknown := Fcb.lengthKnown_iff.2 ⟨hdone, hformed⟩
    have hremain := Fcb.remain_toNat hknown
    have hcrclen := Fcb.crclen_toNat hknown
    obtain ⟨hcls, htotal, hhbc⟩ := inv.lengths hknown
    have hlong := headerBytes_add_three_le_frameLen hcls S.cnt.toNat
    refine ⟨by omega, by omega, ?_, ?_, ?_, ?_, ?_⟩
    all_goals
      intro hclass
      simp only [hclass, frameLen, headerBytes] at htotal hhbc
      omega
  · apply Fcb.lengths_eq_zero
    rw [Fcb.lengthKnown_iff]
    rintro ⟨hdone, hformed⟩
    simp [hdone, hformed] at h

end Sys2Proof.Machine
end

section
/-! SUPPORT. What the control commands without a reset do (R78, R79), and the statements about them (42_control.md). -/

namespace Sys2Proof.Machine

/-- `NOP` (R78). -/
theorem exec_nop (s : State) : exec .nop s = .next s := rfl

/-- `ERR_CLEAR` (R79). -/
theorem exec_errClear (s : State) : exec .errClear s = .next (s.onBlock Fcb.clearErrors) := rfl

/-- STATUS after `ERR_CLEAR`: bits 5 and 6 are cleared, the five result bits stay (R27, R79). -/
theorem statusWord_clearErrors (S : Fcb) : statusWord S.clearErrors = statusWord S &&& 0x1F#32 := by
  have hmask : 0x1F#32 = 0#25 ++ BitVec.ofBool false ++ BitVec.ofBool false ++ BitVec.ofBool true ++
      BitVec.allOnes 2 ++ BitVec.ofBool true ++ BitVec.ofBool true := by decide
  rw [hmask]
  unfold statusWord
  iterate 6 rw [BitVec.and_append]
  simp only [BitVec.ofBool_and_ofBool, BitVec.and_allOnes, BitVec.and_zero, Bool.and_true, Bool.and_false]
  rfl

/-- Settles O19: the corner case is `CLS_START` of a one-byte-count code, whose state `NOP` hands on. -/
theorem nopDoesNothing : Obligations.NopDoesNothing := by
  unfold Obligations.NopDoesNothing
  refine ⟨rfl, exec_nop, fun imm => performedAsIllegal_of_operand_ne_zero (by decide), fun s => ?_⟩
  exact ⟨_, (execAll_cons (exec_clsStart 0x03#8 s)).trans (execAll_cons (exec_nop _)), rfl, rfl⟩

/-- Settles O20: STATUS loses its two error bits and nothing else, so 0x60 becomes 0. -/
theorem errClearClearsStickyFlags : Obligations.ErrClearClearsStickyFlags := by
  unfold Obligations.ErrClearClearsStickyFlags
  refine ⟨rfl, fun s => ⟨_, exec_errClear s, rfl⟩, fun s t h => ?_,
    fun imm => performedAsIllegal_of_operand_ne_zero (by decide), fun s t hstatus h => ?_⟩
  · cases (exec_errClear s).symm.trans h
    exact exec_errClear _
  · cases (exec_errClear s).symm.trans h
    rw [regRead_status] at hstatus ⊢
    rw [State.onBlock_fcb, statusWord_clearErrors, hstatus]
    decide

end Sys2Proof.Machine
end

section
/-! SUPPORT. A step answers in every state, and the statement about the block's response to errors (60_exceptions.md). -/

namespace Sys2Proof.Machine

/-- A legal command word is performed as its instruction's meaning, with the word taken off the list (R9, R87). -/
theorem step_legal {s : State} {w : CmdWord} {i : Instr} {rest : List HostAction}
    (hp : s.pending = .command w :: rest) (hd : decode w = some i) : step s = exec i { s with pending := rest } := by
  simp [step, fetch, hp, hd]

/-- With nothing pending a step changes nothing (R90, R96). -/
theorem step_idle {s : State} (hp : s.pending = []) : step s = .next s := by
  simp [step, fetch, hp, execIdle]

/-- The block never stops (R84): idle, command, read and reset all lead to a next state. -/
theorem exists_step_eq_next (s : State) : ∃ t, step s = .next t := by
  cases hp : s.pending with
  | nil => exact ⟨s, step_idle hp⟩
  | cons a rest =>
    cases a with
    | command w =>
      cases hd : decode w with
      | none => exact ⟨_, step_illegal hp hd⟩
      | some i =>
        obtain ⟨f, hf⟩ := exec_onBlock i
        exact ⟨_, (step_legal hp hd).trans (hf _)⟩
    | read a => exact ⟨_, step_read hp⟩
    | reset => exact ⟨_, step_reset hp⟩

/-- Settles O10: an illegal word and a header byte out of phase are both performed as `set_error`, and whatever state a
step leaves, the next one answers. -/
theorem setErrorSetsOnlyItsFlag : Obligations.SetErrorSetsOnlyItsFlag := by
  unfold Obligations.SetErrorSetsOnlyItsFlag
  refine ⟨fun S => ⟨Fcb.setError_ill S, Fcb.setError_seq S⟩, fun w hd => performedAsIllegal_of_decode_eq_none hd,
    fun s w rest b hp hd houtOfPhase => ?_, fun s t _ => exists_step_eq_next t⟩
  have hexec := exec_clsHdr_outOfPhase (b := b) (s := { s with pending := rest }) houtOfPhase
  exact ⟨_, (step_legal hp hd).trans hexec, Fcb.setError_seq s.fcb⟩

end Sys2Proof.Machine
end

section
/-! SUPPORT. The ROM entries as instructions (R56), and runs of the words of instructions: what the statements about
decoding, the step and the order of the host's actions need (R9, R45, R51, R58, R84). -/

namespace Sys2Proof

/-- The command that a word decodes to is well-formed, and its encoding is that word (R51, R52). -/
theorem encode_of_decode {w : CmdWord} {i : Instr} (h : decode w = some i) :
    i.wellFormed = true ∧ encode i = .cmd w := by
  rw [← w.pack_fields, decode_pack] at h
  rw [← w.pack_fields]
  generalize w.op = op, w.hi = hi, w.lo = b at h ⊢
  split_ifs at h <;> cases h <;> simp [Instr.wellFormed, encode, *]

/-- The entry that a function code selects admits that code, by evaluating all 256 codes (R56). -/
theorem encode_of_decodeRom {fc : Byte} {i : Instr} (h : decodeRom fc = some i) :
    i.wellFormed = true ∧ encode i = .fcrom fc := by
  have all : ∀ fc : Byte, ∀ i ∈ decodeRom fc, i.wellFormed = true ∧ encode i = .fcrom fc := by decide +kernel
  exact all fc i h

/-- Settles O2: a command by its packed fields, a ROM entry by its code. -/
theorem encodeDecodeRoundTrip : Obligations.EncodeDecodeRoundTrip := by
  unfold Obligations.EncodeDecodeRoundTrip
  intro x i h
  cases x with
  | cmd w => exact encode_of_decode h
  | fcrom fc => exact encode_of_decodeRom h

end Sys2Proof

namespace Sys2Proof.Machine

/-- The codes of the four ranges below 0x80 are UNKNOWN, by evaluating all 256 codes (R56). -/
theorem rom_of_unnamed_range {build : Byte → Instr}
    (hbuild : build ∈ [Instr.fc1A1B, Instr.fc1C1F, Instr.fc203F, Instr.fc407F]) {fc : Byte}
    (hw : (build fc).wellFormed = true) : rom fc = .unknown := by
  have all : ∀ build ∈ [Instr.fc1A1B, Instr.fc1C1F, Instr.fc203F, Instr.fc407F], ∀ fc : Byte,
      (build fc).wellFormed = true → rom fc = .unknown := by decide +kernel
  exact all build hbuild fc hw

/-- The codes of the last entry are exceptions, by evaluating all 256 codes (R56). -/
theorem rom_of_exception_range {fc : Byte} (hw : (Instr.fc80FF fc).wellFormed = true) : rom fc = .exception := by
  have all : ∀ fc : Byte, (Instr.fc80FF fc).wellFormed = true → rom fc = .exception := by decide +kernel
  exact all fc hw

/-- A ROM entry does what `CLS_START` does with a code the entry admits: its row names the class the ROM gives the code
(R56, R70). -/
theorem exec_clsStart_eq_entry {i : Instr} {fc : Byte} (hw : i.wellFormed = true) (he : encode i = .fcrom fc)
    (s : State) : exec (.clsStart fc) s = exec i s := by
  rw [exec_clsStart]
  cases i with
  | nop | crcInit | crcByte | crcCheck | clsStart | clsHdr | clsClear | errClear | softReset => cases he
  | fc1A1B | fc1C1F | fc203F | fc407F =>
    cases he
    rw [rom_of_unnamed_range (by simp) hw]
    rfl
  | fc80FF =>
    cases he
    rw [rom_of_exception_range hw]
    rfl
  | _ =>
    cases he
    rfl

/-- The word of a well-formed instruction decodes to a command that does what the instruction does (R51, R70). -/
theorem decode_command_encode {i : Instr} (hw : i.wellFormed = true) :
    ∃ j, decode (encode i).command = some j ∧ ∀ s : State, exec j s = exec i s := by
  have hi := decodeEncodeRoundTrip i hw
  cases he : encode i with
  | cmd w =>
    rw [he] at hi
    exact ⟨i, hi, fun _ => rfl⟩
  | fcrom fc => exact ⟨.clsStart fc, by simp [TableWord.command, decode_pack], exec_clsStart_eq_entry hw he⟩

/-- Every code selects an entry, by evaluating all 256 codes (R56). -/
theorem exists_decodeRom (fc : Byte) : ∃ i, decodeRom fc = some i := by
  have all : ∀ fc : Byte, (decodeRom fc).isSome = true := by decide +kernel
  exact Option.isSome_iff_exists.1 (all fc)

/-- Settles O42: the entries that match are counted for all 256 codes. -/
theorem clsStartIsItsRomEntry : Obligations.ClsStartIsItsRomEntry := by
  unfold Obligations.ClsStartIsItsRomEntry
  have count : ∀ fc : Byte, (romRows.filter fun r => fc &&& r.mask == r.pattern).length = 1 := by decide +kernel
  intro fc
  obtain ⟨i, hi⟩ := exists_decodeRom fc
  obtain ⟨hw, he⟩ := encode_of_decodeRom hi
  exact ⟨count fc, i, hi, hw, exec_clsStart_eq_entry hw he⟩

/-- Settles O5, word by word. -/
theorem wordsOfTheTables : Obligations.WordsOfTheTables := by
  unfold Obligations.WordsOfTheTables
  decide

/-- Settles O7: by the two cases of the host's list. -/
theorem stepRunsDecodedCommand : Obligations.StepRunsDecodedCommand := by
  unfold Obligations.StepRunsDecodedCommand
  exact ⟨fun s w rest i hp hd => step_legal hp hd, fun s hp => step_idle hp⟩

/-- Settles O8: an instruction is an operation on the block, which always answers. -/
theorem machineNeverStops : Obligations.MachineNeverStops := by
  unfold Obligations.MachineNeverStops
  refine ⟨exists_step_eq_next, fun i s => ?_⟩
  obtain ⟨f, hf⟩ := exec_onBlock i
  exact ⟨_, hf s⟩

/-- Settles O9: an instruction is an operation on the block alone. -/
theorem execLeavesTheHostSide : Obligations.ExecLeavesTheHostSide := by
  unfold Obligations.ExecLeavesTheHostSide
  intro i s t h
  obtain ⟨hpending, hreads⟩ := exec_hostSide h
  exact ⟨hpending.symm, hreads.symm⟩

/-- A step takes one action off the list (R45). -/
theorem step_pending {s t : State} {a : HostAction} {rest : List HostAction} (hp : s.pending = a :: rest)
    (h : step s = .next t) : t.pending = rest := by
  cases a with
  | command w => exact (step_command_hostSide hp h).1
  | read a =>
    cases (step_read hp).symm.trans h
    rfl
  | reset =>
    cases (step_reset hp).symm.trans h
    rfl

/-- A run with nothing pending is over. -/
theorem runPending_nil {s : State} (hp : s.pending = []) : runPending s = .next s := by
  rw [runPending, hp]
  rfl

/-- A run performs the action at the head and then the rest (R45). -/
theorem runPending_cons {s t : State} {a : HostAction} {rest : List HostAction} (hp : s.pending = a :: rest)
    (h : step s = .next t) : runPending s = runPending t := by
  rw [runPending, runPending, hp, step_pending hp h, List.length_cons, run_succ _ h]

/-- Settles O15, by induction on the first list. -/
theorem actionsTakeEffectInOrder : Obligations.ActionsTakeEffectInOrder := by
  unfold Obligations.ActionsTakeEffectInOrder
  intro s t first second hp h
  induction first generalizing s with
  | nil =>
    cases h
    exact ⟨hp, rfl⟩
  | cons a first ih =>
    obtain ⟨u, hu⟩ := exists_step_eq_next s
    rw [List.length_cons, run_succ _ hu] at h
    rw [runPending_cons hp hu]
    exact ih u (step_pending hp hu) h

/-- Settles O16, by induction on the instructions: each word decodes to a command with the instruction's effect on the
block, and an effect on the block commutes with the host's list. -/
theorem runningWordsPerformsInstructions : Obligations.RunningWordsPerformsInstructions := by
  unfold Obligations.RunningWordsPerformsInstructions
  intro s is hw hp
  induction is generalizing s with
  | nil =>
    rw [runPending_nil hp]
    cases s
    cases hp
    rfl
  | cons i is ih =>
    obtain ⟨hwi, hwis⟩ := List.forall_mem_cons.1 hw
    obtain ⟨j, hd, hj⟩ := decode_command_encode hwi
    obtain ⟨f, hf⟩ := exec_onBlock i
    have hstep : step s = .next (State.onBlock { s with pending := is.map actionOf } f) :=
      (step_legal hp hd).trans ((hj _).trans (hf _))
    rw [runPending_cons hp hstep, ih _ hwis rfl, execAll_cons (hf _)]
    rfl

end Sys2Proof.Machine
end

section
/-! SUPPORT. The CRC function as a linear map (R59): eight steps lose nothing, and shift out a byte that is clear. The
table-driven update (R67) and the residue of a sequence with its own CRC follow. -/

namespace Sys2Proof.Machine

/-- A step on a value with bit 0 clear only shifts (R59). -/
theorem crcShift_of_even {t : Half} (h : t.getLsbD 0 = false) : crcShift t = t >>> 1 := by
  rw [crcShift, h, if_neg Bool.false_ne_true]

/-- Steps whose tested bits are all clear only shift (R59). -/
theorem crcShifts_of_low_clear {n : Nat} {t : Half} (h : ∀ i < n, t.getLsbD i = false) : crcShifts n t = t >>> n := by
  induction n generalizing t with
  | zero => simp [crcShifts]
  | succ n ih =>
    rw [crcShifts, crcShift_of_even (h 0 (by omega)), ih, ← BitVec.shiftRight_add, Nat.add_comm]
    intro i hi
    rw [BitVec.getLsbD_ushiftRight]
    exact h (1 + i) (by omega)

/-- Only 0 is stepped to 0: the polynomial has bit 15, which a shift clears (R59). -/
theorem eq_zero_of_crcShift_eq_zero {t : Half} (h : crcShift t = 0#16) : t = 0#16 := by
  have hlow : t.getLsbD 0 = false := by
    by_contra hodd
    have hbit := congrArg (BitVec.getLsbD · 15) h
    simp [crcShift, Bool.eq_true_of_not_eq_false hodd, Config.crcPoly] at hbit
  rw [crcShift_of_even hlow] at h
  apply BitVec.eq_of_getLsbD_eq
  intro i hi
  cases i with
  | zero => simpa using hlow
  | succ i => simpa [Nat.add_comm] using congrArg (BitVec.getLsbD · i) h

/-- Only 0 is taken to 0 by any number of steps (R59). -/
theorem eq_zero_of_crcShifts_eq_zero {n : Nat} {t : Half} (h : crcShifts n t = 0#16) : t = 0#16 := by
  induction n generalizing t with
  | zero => exact h
  | succ n ih => exact eq_zero_of_crcShift_eq_zero (ih h)

/-- So steps, being linear, are injective. -/
theorem crcShifts_inj {n : Nat} {t u : Half} : crcShifts n t = crcShifts n u ↔ t = u := by
  refine ⟨fun h => ?_, congrArg _⟩
  rw [← BitVec.xor_eq_zero_iff, ← crcShifts_xor] at h
  exact BitVec.xor_eq_zero_iff.1 (eq_zero_of_crcShifts_eq_zero h)

/-- For a fixed byte distinct CRC values stay distinct. -/
theorem crcStep8_inj_crc {c c' : Half} {d : Byte} : crcStep8 c d = crcStep8 c' d ↔ c = c' :=
  crcShifts_inj.trans (BitVec.xor_left_inj _)

/-- For a fixed CRC value distinct bytes give distinct results. -/
theorem crcStep8_inj_byte {c : Half} {d d' : Byte} : crcStep8 c d = crcStep8 c d' ↔ d = d' := by
  refine (crcShifts_inj.trans (BitVec.xor_right_inj _)).trans ⟨fun h => ?_, congrArg _⟩
  simpa using congrArg (BitVec.setWidth 8) h

/-- Settles O33. -/
theorem crcStepIsInjective : Obligations.CrcStepIsInjective := by
  unfold Obligations.CrcStepIsInjective
  exact ⟨fun c c' d => crcStep8_inj_crc.1, fun c d d' => crcStep8_inj_byte.1⟩

/-- A byte alone is a pair whose high byte is 0. -/
theorem setWidth_eq_pair (b : Byte) : b.setWidth 16 = (0#8 ++ b : Half) :=
  BitVec.setWidth_eq_append (by decide)

/-- The high byte of a pair, shifted down. -/
theorem pair_ushiftRight (hi lo : Byte) : (hi ++ lo : Half) >>> 8 = hi.setWidth 16 := by
  rw [setWidth_eq_pair]
  refine (BitVec.ushiftRight_eq_extractLsb'_of_lt (by decide)).trans ?_
  exact congrArg (fun b : Byte => (0#8 ++ b : Half)) (pair_hi hi lo)

/-- Two pairs are added byte by byte. -/
theorem pair_xor (hi lo hi' lo' : Byte) :
    (hi ++ lo : Half) ^^^ (hi' ++ lo') = (hi ^^^ hi') ++ (lo ^^^ lo') :=
  BitVec.xor_append

/-- The eight steps by bytes: the high byte is only shifted down, the low byte selects the table's entry (R59, R67). -/
theorem crcStep8_pair (hi lo d : Byte) : crcStep8 (hi ++ lo) d = hi.setWidth 16 ^^^ crcTable (lo ^^^ d) := by
  have hsplit : (hi ++ lo : Half) ^^^ d.setWidth 16 = (hi ++ 0#8) ^^^ (lo ^^^ d).setWidth 16 := by
    rw [setWidth_eq_pair, setWidth_eq_pair, pair_xor, pair_xor, BitVec.zero_xor]
  have hlow : ∀ i < 8, (hi ++ 0#8 : Half).getLsbD i = false := by
    intro i hi8
    refine BitVec.getLsbD_append.trans ?_
    rw [if_pos hi8, BitVec.getLsbD_zero]
  have hhigh : crcShifts 8 (hi ++ 0#8) = hi.setWidth 16 := by
    rw [crcShifts_of_low_clear hlow, pair_ushiftRight]
  rw [crcStep8, hsplit, crcShifts_xor, crcTable, crcStep8, BitVec.zero_xor, Config.crcStepsPerByte, hhigh]

/-- Settles O32, by the bytes of the CRC value. -/
theorem tableRealisationAgrees : Obligations.TableRealisationAgrees := by
  unfold Obligations.TableRealisationAgrees
  intro c d
  rw [← pair_of_bytes c]
  generalize c.extractLsb' 8 8 = hi, c.extractLsb' 0 8 = lo
  have hindex : ((hi ++ lo : Half) ^^^ d.setWidth 16).setWidth 8 = lo ^^^ d := by
    rw [setWidth_eq_pair, pair_xor]
    exact BitVec.setWidth_append_eq_right
  rw [hindex, pair_ushiftRight, crcStep8_pair]
  rfl

/-- A CRC whose crc-lo is the absorbed byte is only shifted down: the table's entry of 0 is 0 (R67). -/
theorem crcStep8_own_low (hi lo : Byte) : crcStep8 (hi ++ lo) lo = 0#8 ++ hi := by
  have hentry : crcTable 0#8 = 0#16 := by decide
  rw [crcStep8_pair, BitVec.xor_self, hentry, BitVec.xor_zero, setWidth_eq_pair]

/-- The CRC's own bytes, low byte first, take it to 0, and no other pair does (R36, R59). -/
theorem crcStep8_pair_eq_zero_iff {c : Half} {lo hi : Byte} :
    crcStep8 (crcStep8 c lo) hi = 0x0000#16 ↔ c = hi ++ lo := by
  have hown : crcStep8 (crcStep8 (hi ++ lo) lo) hi = 0x0000#16 := by
    rw [crcStep8_own_low, crcStep8_own_low]
    rfl
  rw [← hown, crcStep8_inj_crc, crcStep8_inj_crc]

/-- A sequence followed by a pair has CRC 0 exactly when the pair is its CRC, low byte first. -/
theorem crcOf_append_pair_eq_zero_iff {bytes : List Byte} {lo hi : Byte} :
    crcOf (bytes ++ [lo, hi]) = 0x0000#16 ↔ crcOf bytes = hi ++ lo := by
  rw [← crcStep8_pair_eq_zero_iff]
  simp [crcOf]

/-- Settles O34. -/
theorem residueIsZero : Obligations.ResidueIsZero := by
  unfold Obligations.ResidueIsZero
  intro bytes
  exact crcOf_append_pair_eq_zero_iff.2 (pair_of_bytes _).symm

/-- Bytes absorbed from distinct CRC values leave distinct ones. -/
theorem foldl_crcStep8_inj {bytes : List Byte} {c c' : Half} :
    bytes.foldl crcStep8 c = bytes.foldl crcStep8 c' ↔ c = c' := by
  induction bytes generalizing c c' with
  | nil => rfl
  | cons b bytes ih => exact ih.trans crcStep8_inj_crc

/-- Changing one byte of a sequence changes its CRC. -/
theorem crcOf_set_ne {bytes : List Byte} {k : Nat} {b : Byte} (hk : k < bytes.length) (hb : bytes[k]? ≠ some b) :
    crcOf (bytes.set k b) ≠ crcOf bytes := by
  intro h
  have hsplit : bytes = bytes.take k ++ bytes[k] :: bytes.drop (k + 1) := by simp
  rw [List.set_eq_take_append_cons_drop, if_pos hk] at h
  conv at h => rhs; rw [hsplit]
  rw [crcOf, crcOf, List.foldl_append, List.foldl_append, List.foldl_cons, List.foldl_cons, foldl_crcStep8_inj,
    crcStep8_inj_byte] at h
  simp [h, hk] at hb

/-- Settles O21: the definition's own steps, and the source's vector by evaluation. -/
theorem crcStepIsEightShiftsAndXors : Obligations.CrcStepIsEightShiftsAndXors := by
  unfold Obligations.CrcStepIsEightShiftsAndXors
  exact ⟨fun _ _ => rfl, by decide +kernel⟩

/-- The byte that a zero-extended byte register carries (R29). -/
theorem byte_of_setWidth (b : Byte) : (b.setWidth 32).extractLsb' 0 8 = b := by
  rw [BitVec.extractLsb'_setWidth_of_le (by decide), BitVec.extractLsb'_eq_self]

/-- Settles O14: the two byte views are the bytes of the full view. -/
theorem crcViewsAgree : Obligations.CrcViewsAgree := by
  unfold Obligations.CrcViewsAgree
  intro S
  rw [regRead_crc, regRead_crcLo, regRead_crcHi, byte_of_setWidth, byte_of_setWidth]
  exact congrArg _ (pair_of_bytes S.crc).symm

end Sys2Proof.Machine
end

section
/-! SUPPORT. The pseudo-instruction `FRAME_CHECK` (R58, R66): what it accepts, and what no change of one byte keeps
accepted. -/

namespace Sys2Proof.Machine

/-- `FRAME_CHECK` of a frame that ends in the pair lo, hi (R58). -/
theorem frameCheck_append_pair (body : List Byte) (lo hi : Byte) :
    frameCheck (body ++ [lo, hi]) = some (crcBlock body ++ [.crcCheck lo hi]) := by
  simp [frameCheck]

/-- Only a frame of two bytes or more has a `FRAME_CHECK` (R58). -/
theorem two_le_length_of_frameCheck {frame : List Byte} {is : List Instr} (h : frameCheck frame = some is) :
    2 ≤ frame.length := by
  unfold frameCheck at h
  split at h
  next lo hi hpair =>
    have htwo := congrArg List.length hpair
    rw [List.length_drop, List.length_cons, List.length_cons, List.length_nil] at htwo
    omega
  · cases h

/-- A frame of two bytes or more is a body and a pair. -/
theorem exists_body_and_pair {frame : List Byte} (hlen : 2 ≤ frame.length) :
    ∃ body lo hi, frame = body ++ [lo, hi] := by
  have htwo : (frame.drop (frame.length - 2)).length = 2 := by
    rw [List.length_drop]
    omega
  obtain ⟨lo, hi, hpair⟩ := List.length_eq_two.1 htwo
  exact ⟨frame.take (frame.length - 2), lo, hi, by rw [← hpair, List.take_append_drop]⟩

/-- `FRAME_CHECK` compares the CRC of the body with the pair (R58, R63). -/
theorem execAll_frameCheck (body : List Byte) (lo hi : Byte) (s : State) :
    ∃ t, execAll (crcBlock body ++ [.crcCheck lo hi]) s = .next t ∧ t.fcb.checked = true ∧
      (t.fcb.matched = true ↔ crcOf body = hi ++ lo) := by
  refine ⟨_, (execAll_append (execAll_crcBlock body s)).trans (execAll_cons (exec_crcCheck lo hi _)), rfl, ?_⟩
  simp [crcMatches_eq_decide]

/-- The CRC of a whole frame's body, as `crc16` gives it (R60). -/
theorem crc16_body_eq_some_iff {body rest : List Byte} {lo hi : Byte} :
    crc16 (body ++ rest) 0 body.length = some (lo, hi) ↔ crcOf body = hi ++ lo := by
  rw [crc16_of_le (by simp), Option.some_inj, Prod.mk.injEq, eq_pair_iff, List.drop_zero, List.take_left]
  rfl

/-- Settles O30: the body's bytes leave their CRC, which `CRC_CHECK` compares with the pair. -/
theorem frameCheckAcceptsExactlyTheCrc : Obligations.FrameCheckAcceptsExactlyTheCrc := by
  unfold Obligations.FrameCheckAcceptsExactlyTheCrc
  intro s body lo hi
  obtain ⟨t, ht, hchecked, hmatched⟩ := execAll_frameCheck body lo hi s
  exact ⟨_, t, frameCheck_append_pair body lo hi, ht, hchecked, hmatched.trans crc16_body_eq_some_iff.symm⟩

/-- `FRAME_CHECK` accepts a frame of two bytes or more exactly when the CRC of all its bytes is 0 (R58, R66). -/
theorem frameCheck_accepts_iff_crcOf_eq_zero {frame : List Byte} (hlen : 2 ≤ frame.length) (s : State) :
    ∃ is t, frameCheck frame = some is ∧ execAll is s = .next t ∧ t.fcb.checked = true ∧
      (t.fcb.matched = true ↔ crcOf frame = 0x0000#16) := by
  obtain ⟨body, lo, hi, rfl⟩ := exists_body_and_pair hlen
  obtain ⟨t, ht, hchecked, hmatched⟩ := execAll_frameCheck body lo hi s
  exact ⟨_, t, frameCheck_append_pair body lo hi, ht, hchecked, hmatched.trans crcOf_append_pair_eq_zero_iff.symm⟩

/-- Settles O31: a frame passes when its CRC is 0, and changing one byte changes its CRC. -/
theorem oneCorruptedByteIsDetected : Obligations.OneCorruptedByteIsDetected := by
  unfold Obligations.OneCorruptedByteIsDetected
  intro s t frame is k b hfc hrun hmatched hk hb
  have hlen := two_le_length_of_frameCheck hfc
  have hzero : crcOf frame = 0x0000#16 := by
    obtain ⟨is₀, t₀, hfc₀, hrun₀, -, hmatched₀⟩ := frameCheck_accepts_iff_crcOf_eq_zero hlen s
    cases hfc.symm.trans hfc₀
    cases hrun.symm.trans hrun₀
    exact hmatched₀.1 hmatched
  obtain ⟨is', t', hfc', hrun', hchecked', hmatched'⟩ :=
    frameCheck_accepts_iff_crcOf_eq_zero (frame := frame.set k b) (by rwa [List.length_set]) s
  refine ⟨is', t', hfc', hrun', hchecked', ?_⟩
  rw [← Bool.not_eq_true, hmatched', ← hzero]
  exact crcOf_set_ne hk hb

/-- Settles O35: crc-lo of one byte is never 0x07 or 0x08, by evaluating all 256 bytes. -/
theorem fixed3FramesNeverPass : Obligations.Fixed3FramesNeverPass := by
  unfold Obligations.Fixed3FramesNeverPass
  intro s u fc x hfc
  have all : ∀ u : Byte, crcLo (crcOf [u]) ≠ 0x07#8 ∧ crcLo (crcOf [u]) ≠ 0x08#8 := by decide +kernel
  obtain ⟨t, ht, hchecked, hmatched⟩ := execAll_frameCheck [u] fc x s
  refine ⟨_, t, frameCheck_append_pair [u] fc x, ht, hchecked, ?_⟩
  rw [← Bool.not_eq_true, hmatched, eq_pair_iff]
  rintro ⟨hlo, -⟩
  rcases hfc with rfl | rfl
  · exact (all u).1 hlo
  · exact (all u).2 hlo

/-- Settles O60: the expansions are the definitions' own; a frame ends in its pair. -/
theorem pseudoInstructionExpansions : Obligations.PseudoInstructionExpansions := by
  unfold Obligations.PseudoInstructionExpansions
  exact ⟨fun _ => rfl, frameCheck_append_pair, fun _ _ => rfl, fun _ _ _ => ⟨rfl, rfl, rfl⟩⟩

end Sys2Proof.Machine
end

section
/-! SUPPORT. What a whole list of host actions does to the block: the effects of the actions one after another (R45), and
the induction over them. -/

namespace Sys2Proof.Machine

/-- The block before and after a list of host actions, performed in order (R45). -/
inductive RunEffect : List HostAction → Fcb → Fcb → Prop where
  | nil {S : Fcb} : RunEffect [] S S
  | cons {a : HostAction} {acts : List HostAction} {S T U : Fcb} (first : ActionEffect a S T)
      (rest : RunEffect acts T U) : RunEffect (a :: acts) S U

/-- Every run goes through to its end, with the effect of its actions (R84). -/
theorem exists_runPending (s : State) :
    ∃ t, runPending s = .next t ∧ t.pending = [] ∧ RunEffect s.pending s.fcb t.fcb := by
  generalize hp : s.pending = acts
  induction acts generalizing s with
  | nil => exact ⟨s, runPending_nil hp, hp, .nil⟩
  | cons a acts ih =>
    obtain ⟨u, hu⟩ := exists_step_eq_next s
    obtain ⟨t, ht, htp, e⟩ := ih u (step_pending hp hu)
    exact ⟨t, (runPending_cons hp hu).trans ht, htp, .cons (step_actionEffect hp hu) e⟩

/-- Every list of actions has an effect on every block (R84). -/
theorem exists_runEffect (acts : List HostAction) (S : Fcb) : ∃ T, RunEffect acts S T := by
  obtain ⟨t, -, -, e⟩ := exists_runPending { fcb := S, pending := acts, reads := [] }
  exact ⟨t.fcb, e⟩

/-- The effect of two lists is that of the first and then that of the second (R45). -/
theorem RunEffect.of_append {first second : List HostAction} {S U : Fcb} (e : RunEffect (first ++ second) S U) :
    ∃ T, RunEffect first S T ∧ RunEffect second T U := by
  induction first generalizing S with
  | nil => exact ⟨S, .nil, e⟩
  | cons a first ih =>
    cases e with
    | cons ea e =>
      obtain ⟨T, e₁, e₂⟩ := ih e
      exact ⟨T, .cons ea e₁, e₂⟩

/-- What each action of a list keeps, the list keeps. -/
theorem RunEffect.keeps {P : Fcb → Prop} {acts : List HostAction} {S T : Fcb} (e : RunEffect acts S T)
    (keep : ∀ a ∈ acts, ∀ {S T : Fcb}, ActionEffect a S T → P S → P T) (hS : P S) : P T := by
  induction e with
  | nil => exact hS
  | cons ea e ih =>
    obtain ⟨keepFirst, keepRest⟩ := List.forall_mem_cons.1 keep
    exact ih keepRest (keepFirst ea hS)

end Sys2Proof.Machine
end

section
/-! SUPPORT. The two units (R2): which actions a unit does not see, and that what an action does to a unit depends on that
unit alone. Then the statements about the order of actions (R103). -/

namespace Sys2Proof.Machine

/-- Agreement on the CRC unit is an equivalence. -/
theorem Fcb.sameCrcUnit_equivalence : Equivalence Fcb.sameCrcUnit where
  refl := by simp [Fcb.sameCrcUnit]
  symm := by simp +contextual [Fcb.sameCrcUnit]
  trans := by simp +contextual [Fcb.sameCrcUnit]

/-- Agreement on the classifier is an equivalence. -/
theorem Fcb.sameClassifier_equivalence : Equivalence Fcb.sameClassifier where
  refl := by simp [Fcb.sameClassifier]
  symm := by simp +contextual [Fcb.sameClassifier]
  trans := by simp +contextual [Fcb.sameClassifier]

/-- An action between the bytes of one CRC leaves the CRC unit alone (R64). -/
theorem ActionEffect.sameCrcUnit_of_leavesCrc {a : HostAction} {S T : Fcb} (e : ActionEffect a S T)
    (ha : a.leavesCrc = true) : S.sameCrcUnit T := by
  cases e with
  | command hd e => cases e <;> simp [HostAction.leavesCrc, hd, Fcb.sameCrcUnit] at ha ⊢
  | illegal | read => simp [Fcb.sameCrcUnit]
  | reset => cases ha

/-- An action between the commands of one classification leaves the classifier alone (R75). -/
theorem ActionEffect.sameClassifier_of_leavesClassifier {a : HostAction} {S T : Fcb} (e : ActionEffect a S T)
    (ha : a.leavesClassifier = true) : S.sameClassifier T := by
  cases e with
  | command hd e => cases e <;> simp [HostAction.leavesClassifier, hd, Fcb.sameClassifier] at ha ⊢
  | illegal | read => simp [Fcb.sameClassifier]
  | reset => cases ha

/-- `CLS_START` writes the whole classifier, the same in every block (R70). -/
theorem Fcb.sameClassifier_startClass (fc : Byte) (c : FrameClass) (S S' : Fcb) :
    (S.startClass fc c).sameClassifier (S'.startClass fc c) := by
  simp [Fcb.startClass_eq, Fcb.sameClassifier]

/-- A header byte reads the classifier alone (R71). -/
theorem Fcb.sameClassifier_takeHeader {S S' : Fcb} (b : Byte) (h : S.sameClassifier S') :
    (S.takeHeader b).sameClassifier (S'.takeHeader b) := by
  obtain ⟨hphase, hfc, hcls, hneed, hhbc, hcnt, htotal, hmalformed⟩ := h
  by_cases hlast : S'.need - 1#2 = 0#2
  · rw [Fcb.takeHeader_last b S (by rwa [hneed]), Fcb.takeHeader_last b S' hlast]
    simp [Fcb.sameClassifier, *]
  · rw [Fcb.takeHeader_more b S (by rwa [hneed]), Fcb.takeHeader_more b S' hlast]
    simp [Fcb.sameClassifier, *]

/-- A command reads the CRC unit, of the two, to write the CRC unit (R2). -/
theorem CommandEffect.sameCrcUnit {i : Instr} {S T S' T' : Fcb} (e : CommandEffect i S T)
    (e' : CommandEffect i S' T') (h : S.sameCrcUnit S') : T.sameCrcUnit T' := by
  obtain ⟨hcrc, hmatched, hchecked⟩ := h
  cases e <;> cases e' <;> simp [Fcb.sameCrcUnit, *]

/-- A command reads the classifier, of the two, to write the classifier (R2). -/
theorem CommandEffect.sameClassifier {i : Instr} {S T S' T' : Fcb} (e : CommandEffect i S T)
    (e' : CommandEffect i S' T') (h : S.sameClassifier S') : T.sameClassifier T' := by
  cases e with
  | clsStart =>
    cases e'
    exact Fcb.sameClassifier_startClass _ _ S S'
  | clsHdr inPhase =>
    cases e' with
    | clsHdr => exact Fcb.sameClassifier_takeHeader _ h
    | clsHdrOutOfPhase outOfPhase => exact absurd (h.1.symm.trans inPhase) outOfPhase
  | clsHdrOutOfPhase outOfPhase =>
    cases e' with
    | clsHdr inPhase => exact absurd (h.1.trans inPhase) outOfPhase
    | clsHdrOutOfPhase => simpa [Fcb.sameClassifier] using h
  | clsClear | softReset =>
    cases e'
    simp [Fcb.sameClassifier]
  | _ =>
    cases e'
    simpa [Fcb.sameClassifier] using h

/-- What an action does to a unit depends on that unit alone, where that is so of each command and of setting an error
flag (R2). -/
theorem ActionEffect.agree {R : Fcb → Fcb → Prop} (refl : ∀ S, R S S)
    (setError : ∀ {S S' : Fcb} (F : ErrorFlag), R S S' → R (S.setError F) (S'.setError F))
    (command : ∀ {i : Instr} {S T S' T' : Fcb}, CommandEffect i S T → CommandEffect i S' T' → R S S' → R T T')
    {a : HostAction} {S T S' T' : Fcb} (e : ActionEffect a S T) (e' : ActionEffect a S' T') (h : R S S') : R T T' := by
  cases e with
  | command hd e =>
    cases e' with
    | command hd' e' =>
      cases hd.symm.trans hd'
      exact command e e' h
    | illegal hd' => cases hd.symm.trans hd'
  | illegal hd =>
    cases e' with
    | command hd' e' => cases hd.symm.trans hd'
    | illegal => exact setError .ill h
  | read =>
    cases e'
    exact h
  | reset =>
    cases e'
    exact refl _

/-- What an action does to the CRC unit depends on the CRC unit alone (R2). -/
theorem ActionEffect.sameCrcUnit {a : HostAction} {S T S' T' : Fcb} (e : ActionEffect a S T)
    (e' : ActionEffect a S' T') (h : S.sameCrcUnit S') : T.sameCrcUnit T' :=
  e.agree Fcb.sameCrcUnit_equivalence.refl (fun F h => by simpa [Fcb.sameCrcUnit] using h) CommandEffect.sameCrcUnit e' h

/-- What an action does to the classifier depends on the classifier alone (R2). -/
theorem ActionEffect.sameClassifier {a : HostAction} {S T S' T' : Fcb} (e : ActionEffect a S T)
    (e' : ActionEffect a S' T') (h : S.sameClassifier S') : T.sameClassifier T' :=
  e.agree Fcb.sameClassifier_equivalence.refl (fun F h => by simpa [Fcb.sameClassifier] using h)
    CommandEffect.sameClassifier e' h

/-- Settles O57: both steps have the effect of the same action. -/
theorem unitsAreIndependent : Obligations.UnitsAreIndependent := by
  unfold Obligations.UnitsAreIndependent
  intro s s' t t' a rest rest' hp hp' h h'
  have e := step_actionEffect hp h
  have e' := step_actionEffect hp' h'
  exact ⟨e.sameCrcUnit e', e.sameClassifier e'⟩

section
variable {R : Fcb → Fcb → Prop} {leaves : HostAction → Bool} (equiv : Equivalence R)
  (skip : ∀ {a : HostAction} {S T : Fcb}, ActionEffect a S T → leaves a = true → R S T)
  (agree : ∀ {a : HostAction} {S T S' T' : Fcb}, ActionEffect a S T → ActionEffect a S' T' → R S S' → R T T')
include equiv skip agree

/-- The actions that leave a unit alone may be dropped from a run, as far as that unit is concerned (R103). -/
theorem RunEffect.agree_filter {acts : List HostAction} {S T S' T' : Fcb} (e : RunEffect acts S T)
    (e' : RunEffect (acts.filter fun a => !leaves a) S' T') (h : R S S') : R T T' := by
  induction e generalizing S' with
  | nil =>
    cases e'
    exact h
  | @cons a acts S T U ea e ih =>
    by_cases ha : leaves a = true
    · rw [List.filter_cons_of_neg (by simp [ha])] at e'
      exact ih e' (equiv.trans (equiv.symm (skip ea ha)) h)
    · rw [List.filter_cons_of_pos (by simp [ha])] at e'
      cases e' with
      | cons ea' e' => exact ih e' (agree ea ea' h)

/-- Two runs with the same actions for one unit, in the same order, leave that unit the same (R103): each agrees with the
run of those actions alone. -/
theorem RunEffect.agree_of_filter_eq {acts acts' : List HostAction} {S T S' T' : Fcb} (e : RunEffect acts S T)
    (e' : RunEffect acts' S' T') (h : R S S')
    (hfilter : acts.filter (fun a => !leaves a) = acts'.filter fun a => !leaves a) : R T T' := by
  obtain ⟨U, alone⟩ := exists_runEffect (acts.filter fun a => !leaves a) S'
  have hT : R T U := e.agree_filter equiv skip agree alone h
  have hT' : R T' U := e'.agree_filter equiv skip agree (hfilter ▸ alone) (equiv.refl S')
  exact equiv.trans hT (equiv.symm hT')

end

/-- Settles O58: for each unit, what leaves it alone may be dropped from both runs. -/
theorem interleavingOfUnitsIsFree : Obligations.InterleavingOfUnitsIsFree := by
  unfold Obligations.InterleavingOfUnitsIsFree
  intro s s'
  obtain ⟨t, ht, -, e⟩ := exists_runPending s
  obtain ⟨t', ht', -, e'⟩ := exists_runPending s'
  refine ⟨t, t', ht, ht', fun h hfilter => ?_, fun h hfilter => ?_⟩
  · exact e.agree_of_filter_eq Fcb.sameCrcUnit_equivalence ActionEffect.sameCrcUnit_of_leavesCrc
      ActionEffect.sameCrcUnit e' h hfilter
  · exact e.agree_of_filter_eq Fcb.sameClassifier_equivalence ActionEffect.sameClassifier_of_leavesClassifier
      ActionEffect.sameClassifier e' h hfilter

end Sys2Proof.Machine
end

section
/-! SUPPORT. The statements about what the CRC commands leave unchanged, what changes `crc`, and a run of bytes (R14, R2,
R64). -/

namespace Sys2Proof.Machine

/-- Settles O26: the CRC commands write only `crc`, `match` and `checked`. -/
theorem crcCommandsFrame : Obligations.CrcCommandsFrame := by
  unfold Obligations.CrcCommandsFrame
  intro i s t hi h
  have hhost := execLeavesTheHostSide i s t h
  rcases hi with rfl | ⟨b, rfl⟩ | ⟨lo, hi, rfl⟩
  · cases (exec_crcInit s).symm.trans h
    exact ⟨by simp [Fcb.sameClassifier], by simp [Fcb.sameErrors], hhost, by simp⟩
  · cases (exec_crcByte b s).symm.trans h
    exact ⟨by simp [Fcb.sameClassifier], by simp [Fcb.sameErrors], hhost, by simp⟩
  · cases (exec_crcCheck lo hi s).symm.trans h
    exact ⟨by simp [Fcb.sameClassifier], by simp [Fcb.sameErrors], hhost, by simp⟩

/-- The actions that write `crc` are those that clear the check result; every other action keeps `crc` (R14). -/
theorem ActionEffect.crc_kept {a : HostAction} {S T : Fcb} (e : ActionEffect a S T) (h : ¬ a.ClearsCheck) :
    T.crc = S.crc := by
  cases e with
  | command hd e =>
    cases e with
    | crcInit => exact absurd (.inr (.inl hd)) h
    | softReset => exact absurd (.inr (.inr (.inl hd))) h
    | crcByte => exact absurd (.inr (.inr (.inr ⟨_, hd⟩))) h
    | _ => simp
  | reset => exact absurd (.inl rfl) h
  | illegal | read => simp

/-- Settles O27: a step with nothing pending changes nothing, and an action that does not write `crc` keeps it. -/
theorem onlyCrcWritersChangeCrc : Obligations.OnlyCrcWritersChangeCrc := by
  unfold Obligations.OnlyCrcWritersChangeCrc
  intro s t h hne
  cases hp : s.pending with
  | nil =>
    cases (step_idle hp).symm.trans h
    exact absurd rfl hne
  | cons a rest =>
    exact ⟨a, rest, rfl, by_contra fun hkeep => hne ((step_actionEffect hp h).crc_kept hkeep)⟩

/-- Only a `CRC_BYTE` feeds a byte (R64). -/
theorem instr_of_crcFeed {a : HostAction} {b : Byte} (h : a.crcFeed = some b) : a.instr = some (.crcByte b) := by
  cases a with
  | command w =>
    simp only [HostAction.crcFeed] at h
    split at h
    next b' hd => simpa [HostAction.instr, hd] using h
    · cases h
  | read | reset => cases h

/-- What leaves the CRC alone feeds no byte (R64). -/
theorem crcFeed_of_leavesCrc {a : HostAction} (h : a.leavesCrc = true) : a.crcFeed = none := by
  cases hfeed : a.crcFeed with
  | none => rfl
  | some b =>
    have hi := instr_of_crcFeed hfeed
    cases a with
    | command w => simp [HostAction.leavesCrc, show decode w = some (.crcByte b) from hi] at h
    | read | reset => cases hi

/-- A run of bytes, with actions that leave the CRC alone between them, absorbs the bytes in order (R64). -/
theorem RunEffect.crc_eq {acts : List HostAction} {S T : Fcb} (e : RunEffect acts S T)
    (h : ∀ a ∈ acts, a.crcFeed.isSome = true ∨ a.leavesCrc = true) :
    T.crc = (acts.filterMap HostAction.crcFeed).foldl crcStep8 S.crc := by
  induction e with
  | nil => rfl
  | cons ea e ih =>
    obtain ⟨ha, hrest⟩ := List.forall_mem_cons.1 h
    rw [ih hrest]
    rcases ha with hfeed | hleaves
    · obtain ⟨b, hb⟩ := Option.isSome_iff_exists.1 hfeed
      rw [List.filterMap_cons_some hb, List.foldl_cons]
      cases ea.of_instr (instr_of_crcFeed hb)
      rfl
    · rw [List.filterMap_cons_none (crcFeed_of_leavesCrc hleaves), (ea.sameCrcUnit_of_leavesCrc hleaves).1]

/-- Settles O29: `CRC_INIT` leaves the seed, from which the run absorbs the bytes of the range. -/
theorem crcRunComputesCrc16 : Obligations.CrcRunComputesCrc16 := by
  unfold Obligations.CrcRunComputesCrc16
  intro s acts buf off len hp hacts hrange hfeed
  obtain ⟨t, ht, htp, e⟩ := exists_runPending s
  rw [hp] at e
  cases e with
  | @cons _ _ _ S _ first rest =>
    have hseed : S.crc = Config.crcSeed := by
      cases first.of_instr (i := .crcInit) (by decide)
      rfl
    have hcrc : t.fcb.crc = crcOf ((buf.drop off).take len) := by
      rw [rest.crc_eq hacts, hfeed, hseed]
      rfl
    refine ⟨t, ht, htp, ?_, ?_⟩
    · rw [crc16_of_le hrange, ← hcrc]
      rfl
    · rw [crc16_of_le hrange, ← hcrc, regRead_crcLo, regRead_crcHi, byte_of_setWidth, byte_of_setWidth]

end Sys2Proof.Machine
end

section
/-! SUPPORT. The invariants of R31, split by unit: what they say of the classifier is kept whatever the check result is,
and what they say of the check result is kept whatever the classifier does. -/

namespace Sys2Proof.Machine

/-- What the invariants of R31 say of the classifier: they hold of the block with its check result cleared. -/
def Fcb.ClassifierInv (S : Fcb) : Prop := Fcb.Inv { S with matched := false, checked := false }

/-- What the invariants of R31 say of the check result (R15, R16). -/
def Fcb.CheckInv (S : Fcb) : Prop := S.checked = false → S.matched = false

/-- The invariants of R31 are those of the two units. -/
theorem Fcb.inv_iff {S : Fcb} : S.Inv ↔ S.ClassifierInv ∧ S.CheckInv := by
  simp [Fcb.ClassifierInv, Fcb.CheckInv, Fcb.Inv, and_assoc]

section
variable {S T : Fcb}

/-- The classifier's invariants read the classifier alone. -/
theorem Fcb.ClassifierInv.of_same (inv : S.ClassifierInv) (h : S.sameClassifier T) : T.ClassifierInv := by
  obtain ⟨hphase, hfc, hcls, hneed, hhbc, hcnt, htotal, hmalformed⟩ := h
  simpa [Fcb.ClassifierInv, Fcb.Inv, *] using inv

/-- The count bound reads the classifier alone. -/
theorem Fcb.CountInv.of_same (inv : S.CountInv) (h : S.sameClassifier T) : T.CountInv := by
  obtain ⟨-, -, -, -, hhbc, hcnt, -, -⟩ := h
  simpa [Fcb.CountInv, hhbc, hcnt] using inv

/-- The classifier's invariants in WAIT_HDR (R31). -/
theorem Fcb.ClassifierInv.of_waitHdr (inv : S.ClassifierInv) (h : S.phase = .waitHdr) :
    ((S.cls = .count8 ∨ S.cls = .count16) ∧ 1 ≤ S.need.toNat ∧ S.need.toNat + S.hbc.toNat = headerBytes S.cls) ∧
      S.total = 0#17 ∧ S.malformed = false ∧ S.cls = rom S.fc := by
  obtain ⟨-, -, invWait, -, -⟩ := inv
  obtain ⟨hcls, hneed, hsum, rest⟩ := invWait h
  have hbytes : (if S.cls = .count8 then 1 else 2) = headerBytes S.cls := by
    rcases (show S.cls = .count8 ∨ S.cls = .count16 from hcls) with hc | hc <;> rw [hc] <;> rfl
  exact ⟨⟨hcls, hneed, hsum.trans hbytes⟩, rest⟩

/-- The classifier's invariants in DONE (R31). -/
theorem Fcb.ClassifierInv.of_done (inv : S.ClassifierInv) (h : S.phase = .done) :
    S.need = 0#2 ∧ S.cls = rom S.fc ∧ S.total.toNat = frameLen S.cls S.cnt.toNat ∧
      S.hbc.toNat = headerBytes S.cls ∧ (S.malformed = true ↔ S.cls = .unknown) := by
  obtain ⟨-, -, -, invDone, -⟩ := inv
  exact invDone h

/-- The three ways to wait for a header byte (R20, R21, R31). -/
theorem Fcb.ClassifierInv.waiting (inv : S.ClassifierInv) (h : S.phase = .waitHdr) :
    (S.cls = .count8 ∧ S.need = 1#2 ∧ S.hbc = 0#2) ∨ (S.cls = .count16 ∧ S.need = 2#2 ∧ S.hbc = 0#2) ∨
      (S.cls = .count16 ∧ S.need = 1#2 ∧ S.hbc = 1#2) := by
  obtain ⟨⟨hcls, hneed, hsum⟩, -⟩ := inv.of_waitHdr h
  simp only [← BitVec.toNat_inj, BitVec.toNat_ofNat]
  rcases hcls with hc | hc
  · simp only [hc, headerBytes] at hsum
    simp [hc]
    omega
  · simp only [hc, headerBytes] at hsum
    simp [hc]
    omega

/-- Any block meets the classifier's invariants once its classifier is cleared (R72). -/
theorem Fcb.classifierInv_clearClassifier (S : Fcb) : S.clearClassifier.ClassifierInv := by
  simp [Fcb.ClassifierInv, Fcb.Inv, Phase.code, FrameClass.code]

/-- Any block meets the classifier's invariants once a function code is latched (R70). -/
theorem Fcb.classifierInv_startClass (fc : Byte) (S : Fcb) : (S.startClass fc (rom fc)).ClassifierInv := by
  rw [Fcb.startClass_eq]
  cases hc : rom fc <;>
    simp [Fcb.ClassifierInv, Fcb.Inv, hc, need0, frameLen, headerBytes, Phase.code, FrameClass.code]

/-- A header byte in WAIT_HDR keeps the classifier's invariants (R71). -/
theorem Fcb.ClassifierInv.takeHeader (inv : S.ClassifierInv) (h : S.phase = .waitHdr) (b : Byte) :
    (S.takeHeader b).ClassifierInv := by
  have hwait := inv.waiting h
  obtain ⟨-, htotal, hmalformed, hrom⟩ := inv.of_waitHdr h
  rcases hwait with ⟨hcls, hneed, hhbc⟩ | ⟨hcls, hneed, hhbc⟩ | ⟨hcls, hneed, hhbc⟩
  · rw [Fcb.takeHeader_last b S (by simp [hneed])]
    simp [Fcb.ClassifierInv, Fcb.Inv, Phase.code, FrameClass.code, lengthReg_toNat, headerBytes, hmalformed, ← hrom,
      hcls, hneed, hhbc]
  · rw [Fcb.takeHeader_more b S (by simp [hneed])]
    simp [Fcb.ClassifierInv, Fcb.Inv, Phase.code, FrameClass.code, h, htotal, hmalformed, ← hrom, hcls, hneed, hhbc]
  · rw [Fcb.takeHeader_last b S (by simp [hneed])]
    simp [Fcb.ClassifierInv, Fcb.Inv, Phase.code, FrameClass.code, lengthReg_toNat, headerBytes, hmalformed, ← hrom,
      hcls, hneed, hhbc]

/-- A header byte in WAIT_HDR adds to a count of bytes that 2 bits hold (R21). -/
theorem Fcb.ClassifierInv.hbc_succ (inv : S.ClassifierInv) (h : S.phase = .waitHdr) :
    (S.hbc + 1#2).toNat = S.hbc.toNat + 1 := by
  rcases inv.waiting h with ⟨-, -, hhbc⟩ | ⟨-, -, hhbc⟩ | ⟨-, -, hhbc⟩ <;> simp [hhbc]

/-- Every action keeps the classifier's invariants. -/
theorem ActionEffect.keeps_classifierInv {a : HostAction} (e : ActionEffect a S T) (inv : S.ClassifierInv) :
    T.ClassifierInv := by
  cases e with
  | command hd e =>
    cases e with
    | clsStart => exact Fcb.classifierInv_startClass _ S
    | clsHdr inPhase => exact inv.takeHeader inPhase _
    | clsClear => exact Fcb.classifierInv_clearClassifier S
    | softReset => exact (Fcb.classifierInv_clearClassifier Fcb.reset)
    | _ => exact inv.of_same (by simp [Fcb.sameClassifier])
  | reset => exact (Fcb.classifierInv_clearClassifier Fcb.reset)
  | illegal | read => exact inv.of_same (by simp [Fcb.sameClassifier])

/-- Every action keeps `match` clear while no check is recorded: only `CRC_CHECK` sets either (R15, R16). -/
theorem ActionEffect.keeps_checkInv {a : HostAction} (e : ActionEffect a S T) (inv : S.CheckInv) : T.CheckInv := by
  cases e with
  | command hd e =>
    cases e with
    | crcInit | crcByte | crcCheck | softReset => simp [Fcb.CheckInv]
    | _ => simpa [Fcb.CheckInv] using inv
  | reset => simp [Fcb.CheckInv]
  | illegal | read => simpa [Fcb.CheckInv] using inv

/-- Every action keeps the invariants of R31. -/
theorem ActionEffect.keeps_inv {a : HostAction} (e : ActionEffect a S T) (inv : S.Inv) : T.Inv := by
  obtain ⟨hclassifier, hcheck⟩ := Fcb.inv_iff.1 inv
  exact Fcb.inv_iff.2 ⟨e.keeps_classifierInv hclassifier, e.keeps_checkInv hcheck⟩

end

section
variable {S T : Fcb}

/-- A header byte in WAIT_HDR shifts the count by a byte and adds the byte: nothing is lost (R22, R71). -/
theorem Fcb.accumulate_cnt_toNat (inv : S.ClassifierInv) (count : S.CountInv) (h : S.phase = .waitHdr) (b : Byte) :
    (accumulate S.cnt b).toNat = S.cnt.toNat * 256 + b.toNat := by
  apply accumulate_toNat
  rcases inv.waiting h with ⟨-, -, hhbc⟩ | ⟨-, -, hhbc⟩ | ⟨-, -, hhbc⟩ <;> simp [hhbc] at count <;> omega

/-- A header byte in WAIT_HDR keeps the count within the bytes taken (R22, R71). -/
theorem Fcb.CountInv.takeHeader (count : S.CountInv) (inv : S.ClassifierInv) (h : S.phase = .waitHdr) (b : Byte) :
    (S.takeHeader b).CountInv := by
  have hb := b.isLt
  simp only [Fcb.CountInv, Fcb.takeHeader_cnt, Fcb.takeHeader_hbc, Fcb.accumulate_cnt_toNat inv count h,
    inv.hbc_succ h, pow_succ] at count ⊢
  omega

/-- Every action keeps the count within the bytes taken (R22). -/
theorem ActionEffect.keeps_countInv {a : HostAction} (e : ActionEffect a S T) (inv : S.ClassifierInv)
    (count : S.CountInv) : T.CountInv := by
  cases e with
  | command hd e =>
    cases e with
    | clsStart => simp
    | clsHdr inPhase => exact count.takeHeader inv inPhase _
    | clsClear | softReset => simp
    | _ => exact count.of_same (by simp [Fcb.sameClassifier])
  | reset => simp
  | illegal | read => exact count.of_same (by simp [Fcb.sameClassifier])

end

end Sys2Proof.Machine
end

section
/-! SUPPORT. The statements about the invariants (R31, R22, R23). -/

namespace Sys2Proof.Machine

/-- Settles O50: the reset classifier is a cleared one. -/
theorem resetMeetsInvariants : Obligations.ResetMeetsInvariants := by
  unfold Obligations.ResetMeetsInvariants
  exact ⟨Fcb.inv_iff.2 ⟨Fcb.classifierInv_clearClassifier Fcb.reset, fun _ => rfl⟩, by decide⟩

/-- Settles O51: a step is idle or has the effect of its action. -/
theorem stepKeepsInvariants : Obligations.StepKeepsInvariants := by
  unfold Obligations.StepKeepsInvariants
  intro s t inv h
  cases hp : s.pending with
  | nil =>
    cases (step_idle hp).symm.trans h
    exact inv
  | cons a rest => exact (step_actionEffect hp h).keeps_inv inv

/-- Settles O52: in WAIT_HDR a header byte adds one byte to the count, and every other action leaves or clears it. -/
theorem stepKeepsCountBound : Obligations.StepKeepsCountBound := by
  unfold Obligations.StepKeepsCountBound
  intro s t inv count h
  cases hp : s.pending with
  | nil =>
    cases (step_idle hp).symm.trans h
    exact count
  | cons a rest => exact (step_actionEffect hp h).keeps_countInv (Fcb.inv_iff.1 inv).1 count

/-- Settles O53: the invariants hold at reset and every action keeps them. -/
theorem reachableStatesMeetInvariants : Obligations.ReachableStatesMeetInvariants := by
  unfold Obligations.ReachableStatesMeetInvariants
  intro acts
  obtain ⟨t, ht, -, e⟩ := exists_runPending { State.reset with pending := acts }
  exact ⟨t, ht, e.keeps (fun _ _ => ActionEffect.keeps_inv) resetMeetsInvariants.1⟩

/-- Settles O48: in DONE the invariants give the length rule's value, which 17 bits hold. -/
theorem totalIsExact : Obligations.TotalIsExact := by
  unfold Obligations.TotalIsExact
  refine ⟨fun S inv => ?_, lengthReg_toNat, rfl⟩
  have classifier := (Fcb.inv_iff.1 inv).1
  cases hphase : S.phase with
  | idle =>
    obtain ⟨-, invIdle, -⟩ := inv
    obtain ⟨-, -, -, -, -, htotal, -⟩ := invIdle hphase
    simp [htotal]
  | waitHdr =>
    obtain ⟨-, htotal, -⟩ := classifier.of_waitHdr hphase
    simp [htotal]
  | done =>
    obtain ⟨-, -, htotal, -⟩ := classifier.of_done hphase
    simp [htotal, frameLen_le]

end Sys2Proof.Machine
end

section
/-! SUPPORT. The run of one classification (R75): from `CLS_START` on, the latched code and the header bytes taken so far
determine the classifier, through the invariants of R31. -/

namespace Sys2Proof.Machine

/-- `CLS_HDR` in WAIT_HDR field by field: whether the byte is the last decides phase and total (R71). -/
theorem Fcb.takeHeader_eq (b : Byte) (S : Fcb) : S.takeHeader b = { S with
    cnt := accumulate S.cnt b, hbc := S.hbc + 1#2, need := S.need - 1#2,
    total := if S.need - 1#2 = 0#2 then lengthReg S.cls (accumulate S.cnt b) else S.total,
    phase := if S.need - 1#2 = 0#2 then .done else S.phase } := by
  by_cases hlast : S.need - 1#2 = 0#2
  · simp only [Fcb.takeHeader_last b S hlast, if_pos hlast]
  · simp only [Fcb.takeHeader_more b S hlast, if_neg hlast]

/-- The phase after an in-phase header byte (R17, R71). -/
@[simp] theorem Fcb.takeHeader_phase (b : Byte) (S : Fcb) :
    (S.takeHeader b).phase = if S.need - 1#2 = 0#2 then .done else S.phase := by
  rw [Fcb.takeHeader_eq]

/-- The count that header bytes give, the first most significant (R37). -/
def headerCount (bytes : List Byte) : Nat := bytes.foldl (fun n b => n * 256 + b.toNat) 0

/-- One more header byte (R37). -/
theorem headerCount_append_singleton (bytes : List Byte) (b : Byte) :
    headerCount (bytes ++ [b]) = headerCount bytes * 256 + b.toNat :=
  List.foldl_append

/-- The pure contract is the length rule of the class, at the count of the header bytes it asks for (R68, R69). -/
theorem classify_eq (fc : Byte) (peek : Nat → Byte) :
    classify fc peek =
      (frameLen (rom fc) (headerCount ((List.range (headerBytes (rom fc))).map fun k => peek (k + 1))),
        headerBytes (rom fc)) := by
  unfold classify
  cases rom fc <;> simp [frameLen, headerBytes, headerCount, List.range_succ]

/-- The host action for a command performs that command (R51). -/
theorem instr_actionOf_of_command {i : Instr} {w : CmdWord} (hw : i.wellFormed = true) (he : encode i = .cmd w) :
    (actionOf i).instr = some i := by
  have hd := decodeEncodeRoundTrip i hw
  rw [he] at hd
  rw [actionOf, he]
  exact hd

/-- No class asks for more than two header bytes (R68). -/
theorem headerBytes_le_two (c : FrameClass) : headerBytes c ≤ 2 := by
  cases c <;> decide

/-- The classifier has latched `fc` and then taken the header bytes `bytes`. -/
structure Fcb.Taken (fc : Byte) (bytes : List Byte) (S : Fcb) : Prop where
  inv : S.ClassifierInv
  count : S.CountInv
  started : S.phase ≠ .idle
  latched : S.fc = fc
  taken : S.hbc.toNat = bytes.length
  counted : S.cnt.toNat = headerCount bytes

section
variable {fc : Byte} {bytes : List Byte} {S T : Fcb}

/-- What was taken is the classifier's alone. -/
theorem Fcb.Taken.of_same (h : S.Taken fc bytes) (same : S.sameClassifier T) : T.Taken fc bytes := by
  obtain ⟨hphase, hfc, -, -, hhbc, hcnt, -, -⟩ := id same
  exact {
    inv := h.inv.of_same same
    count := h.count.of_same same
    started := hphase ▸ h.started
    latched := hfc ▸ h.latched
    taken := hhbc ▸ h.taken
    counted := hcnt ▸ h.counted }

/-- `CLS_START` latches the code and has taken nothing yet (R70). -/
theorem Fcb.taken_startClass (fc : Byte) (S : Fcb) : (S.startClass fc (rom fc)).Taken fc [] where
  inv := Fcb.classifierInv_startClass fc S
  count := by simp
  started := by
    rw [Fcb.startClass_eq]
    split <;> simp
  latched := Fcb.startClass_fc _ _ _
  taken := by simp
  counted := by simp [headerCount]

/-- Fewer bytes than the class asks for leave it waiting with total 0 (R20, R23). -/
theorem Fcb.Taken.waiting (h : S.Taken fc bytes) (hlen : bytes.length < headerBytes (rom fc)) :
    S.phase = .waitHdr ∧ S.total = 0#17 := by
  have hwait : S.phase = .waitHdr := by
    cases hphase : S.phase with
    | idle => exact absurd hphase h.started
    | waitHdr => rfl
    | done =>
      obtain ⟨-, hcls, -, hhbc, -⟩ := h.inv.of_done hphase
      rw [hcls, h.latched, h.taken] at hhbc
      omega
  obtain ⟨-, htotal, -⟩ := h.inv.of_waitHdr hwait
  exact ⟨hwait, htotal⟩

/-- All the bytes that the class asks for end the classification with its length (R20, R23). -/
theorem Fcb.Taken.finished (h : S.Taken fc bytes) (hlen : bytes.length = headerBytes (rom fc)) :
    S.phase = .done ∧ S.total.toNat = frameLen (rom fc) (headerCount bytes) ∧ S.hbc.toNat = headerBytes (rom fc) := by
  have hdone : S.phase = .done := by
    cases hphase : S.phase with
    | idle => exact absurd hphase h.started
    | waitHdr =>
      obtain ⟨⟨-, hneed, hsum⟩, -, -, hcls⟩ := h.inv.of_waitHdr hphase
      rw [hcls, h.latched, h.taken] at hsum
      omega
    | done => rfl
  obtain ⟨-, hcls, htotal, hhbc, -⟩ := h.inv.of_done hdone
  rw [hcls, h.latched, h.counted] at htotal
  rw [hcls, h.latched] at hhbc
  exact ⟨hdone, htotal, hhbc⟩

/-- An in-phase header byte is taken (R71). -/
theorem Fcb.Taken.takeHeader (h : S.Taken fc bytes) (hphase : S.phase = .waitHdr) (b : Byte) :
    (S.takeHeader b).Taken fc (bytes ++ [b]) where
  inv := h.inv.takeHeader hphase b
  count := h.count.takeHeader h.inv hphase b
  started := by
    rw [Fcb.takeHeader_phase]
    split <;> simp [hphase]
  latched := by rw [Fcb.takeHeader_fc, h.latched]
  taken := by rw [Fcb.takeHeader_hbc, h.inv.hbc_succ hphase, h.taken, List.length_append, List.length_singleton]
  counted := by
    rw [Fcb.takeHeader_cnt, Fcb.accumulate_cnt_toNat h.inv h.count hphase, h.counted, headerCount_append_singleton]

/-- An action between the commands of one classification sets no ERR_SEQ: it is no header byte (R25, R75). -/
theorem ActionEffect.errSeq_of_leavesClassifier {a : HostAction} (e : ActionEffect a S T)
    (ha : a.leavesClassifier = true) (hT : T.errSeq = true) : S.errSeq = true := by
  have hclear : ¬ a.ClearsErrors := fun hc => by simp [(e.errors_of_clearsErrors hc).1] at hT
  refine ((e.errSeq_iff hclear).1 hT).resolve_right ?_
  rintro ⟨⟨b, hi⟩, -⟩
  cases a with
  | command w => simp [HostAction.leavesClassifier, show decode w = some (.clsHdr b) from hi] at ha
  | read | reset => cases hi

/-- A legal action sets no ERR_ILL (R26, R83). -/
theorem ActionEffect.errIll_of_legal {a : HostAction} (e : ActionEffect a S T) (ha : a.legal = true)
    (hT : T.errIll = true) : S.errIll = true := by
  have hclear : ¬ a.ClearsErrors := fun hc => by simp [(e.errors_of_clearsErrors hc).2] at hT
  refine ((e.errIll_iff hclear).1 hT).resolve_right ?_
  rintro ⟨w, rfl, hd⟩
  simp [HostAction.legal, hd] at ha

/-- Actions between the commands of one classification leave what was taken, and set no ERR_SEQ (R75). -/
theorem Fcb.Taken.of_between {acts : List HostAction} (h : S.Taken fc bytes) (e : RunEffect acts S T)
    (hacts : ∀ a ∈ acts, a.leavesClassifier = true) :
    T.Taken fc bytes ∧ (T.errSeq = true → S.errSeq = true) := by
  refine e.keeps (P := fun T => T.Taken fc bytes ∧ (T.errSeq = true → S.errSeq = true)) ?_ ⟨h, id⟩
  rintro a ha U V eV ⟨taken, noError⟩
  have hleaves := hacts a ha
  exact ⟨taken.of_same (eV.sameClassifier_of_leavesClassifier hleaves),
    fun hV => noError (eV.errSeq_of_leavesClassifier hleaves hV)⟩

/-- The header bytes that a class asks for are all in phase: each is taken, and none sets ERR_SEQ (R71, R75). -/
theorem Fcb.Taken.of_headers {headers : List (List HostAction × Byte)} (h : S.Taken fc bytes)
    (e : RunEffect (headerActions headers) S T) (hbetween : ∀ p ∈ headers, ∀ a ∈ p.1, a.leavesClassifier = true)
    (hlen : bytes.length + headers.length ≤ headerBytes (rom fc)) :
    T.Taken fc (bytes ++ headers.map Prod.snd) ∧ (T.errSeq = true → S.errSeq = true) := by
  induction headers generalizing bytes S with
  | nil =>
    cases e
    simpa using h
  | cons p headers ih =>
    obtain ⟨between, b⟩ := p
    obtain ⟨hfirst, hrest⟩ := List.forall_mem_cons.1 hbetween
    obtain ⟨U, eBetween, eHeader⟩ := RunEffect.of_append e
    obtain ⟨taken, noError⟩ := h.of_between eBetween hfirst
    rw [List.length_cons] at hlen
    obtain ⟨hwait, -⟩ := taken.waiting (by omega)
    cases eHeader with
    | cons eByte eRest =>
      cases eByte.of_instr (instr_actionOf_of_command (i := .clsHdr b) rfl rfl) with
      | clsHdrOutOfPhase outOfPhase => exact absurd hwait outOfPhase
      | clsHdr =>
        obtain ⟨takenAll, noErrorRest⟩ := ih (taken.takeHeader hwait b) eRest hrest (by simp; omega)
        exact ⟨by simpa using takenAll, fun hT => noError (by simpa using noErrorRest hT)⟩

end

/-- Settles O46: `CLS_START` has taken nothing, the header bytes are taken in order, and what was taken decides whether
the classifier waits or has finished. -/
theorem classificationRunComputesClassify : Obligations.ClassificationRunComputesClassify := by
  unfold Obligations.ClassificationRunComputesClassify
  refine ⟨fun s fc peek headers after hp hbetween hafter hpeek => ?_, fun fc => headerBytes_le_two _⟩
  obtain ⟨t, ht, -, e⟩ := exists_runPending s
  have taken (hlen : headers.length ≤ headerBytes (rom fc)) :
      t.fcb.Taken fc (headers.map Prod.snd) ∧ (t.fcb.errSeq = true → s.fcb.errSeq = true) := by
    rw [hp] at e
    cases e with
    | cons eStart eRest =>
      cases eStart.of_instr (instr_actionOf_of_command (i := .clsStart fc) rfl rfl)
      obtain ⟨U, eHeaders, eAfter⟩ := eRest.of_append
      obtain ⟨takenHeaders, noError⟩ :=
        (Fcb.taken_startClass fc s.fcb).of_headers eHeaders hbetween (by simpa using hlen)
      obtain ⟨takenAll, noErrorAfter⟩ := takenHeaders.of_between eAfter hafter
      exact ⟨takenAll, fun hT => by simpa using noError (noErrorAfter hT)⟩
  refine ⟨fun hlen => ?_, fun hlen => ?_⟩
  · obtain ⟨takenAll, noError⟩ := taken hlen.le
    obtain ⟨hdone, htotal, hhbc⟩ := takenAll.finished (by simpa using hlen)
    refine ⟨t, ht, hdone, ?_, noError, fun hlegal => ?_⟩
    · rw [htotal, hhbc, hpeek, hlen, classify_eq]
    · exact e.keeps (P := fun T => T.errIll = true → s.fcb.errIll = true)
        (fun a ha _ _ ea noIll hT => noIll (ea.errIll_of_legal (hlegal a ha) hT)) id
  · obtain ⟨takenAll, -⟩ := taken hlen.le
    obtain ⟨hwait, htotal⟩ := takenAll.waiting (by simpa using hlen)
    exact ⟨t, ht, hwait, htotal⟩

end Sys2Proof.Machine
end

section
/-! SUPPORT. Header bytes performed as instructions, and what an action writes of the classifier (R17 to R24). -/

namespace Sys2Proof.Machine

/-- `CLS_HDR b` in WAIT_HDR (R71). -/
theorem exec_clsHdr_inPhase {b : Byte} {s : State} (h : s.fcb.phase = .waitHdr) :
    exec (.clsHdr b) s = .next (s.onBlock (Fcb.takeHeader b)) := by
  simp [exec, execClsHdr, State.onBlock, h]

/-- Header bytes that the class asks for are taken one after another (R71). -/
theorem Fcb.Taken.execAll_clsHdr {fc : Byte} {bytes taken : List Byte} {s : State} (h : s.fcb.Taken fc taken)
    (hlen : taken.length + bytes.length ≤ headerBytes (rom fc)) :
    ∃ t, execAll (bytes.map .clsHdr) s = .next t ∧ t.fcb.Taken fc (taken ++ bytes) := by
  induction bytes generalizing taken s with
  | nil => exact ⟨s, rfl, by simpa using h⟩
  | cons b bytes ih =>
    rw [List.length_cons] at hlen
    obtain ⟨hwait, -⟩ := h.waiting (by omega)
    have taken' : (s.onBlock (Fcb.takeHeader b)).fcb.Taken fc (taken ++ [b]) := h.takeHeader hwait b
    obtain ⟨t, ht, takenAll⟩ := ih taken' (by simp; omega)
    exact ⟨t, (execAll_cons (exec_clsHdr_inPhase hwait)).trans ht, by simpa using takenAll⟩

/-- `CLS_START` and header bytes that the class asks for, performed from any state (R70, R71). -/
theorem exists_execAll_clsStart_clsHdr (s : State) {fc : Byte} {bytes : List Byte}
    (hlen : bytes.length ≤ headerBytes (rom fc)) :
    ∃ t, execAll (.clsStart fc :: bytes.map .clsHdr) s = .next t ∧ t.fcb.Taken fc bytes := by
  have started : (s.onBlock (Fcb.startClass fc (rom fc))).fcb.Taken fc [] := Fcb.taken_startClass fc s.fcb
  obtain ⟨t, ht, taken⟩ := started.execAll_clsHdr (bytes := bytes) (by simpa using hlen)
  exact ⟨t, (execAll_cons (exec_clsStart fc s)).trans ht, taken⟩

/-- Code 0x03 asks for one header byte (R56, R68). -/
theorem headerBytes_rom_03 : headerBytes (rom 0x03#8) = 1 := by decide

/-- Code 0x18 asks for two header bytes (R56, R68). -/
theorem headerBytes_rom_18 : headerBytes (rom 0x18#8) = 2 := by decide

/-- The count of one header byte is that byte (R22). -/
theorem headerCount_singleton (b : Byte) : headerCount [b] = b.toNat := by
  simp [headerCount]

/-- The count of two header bytes, big-endian (R37). -/
theorem headerCount_pair (first second : Byte) : headerCount [first, second] = first.toNat * 256 + second.toNat := by
  simp [headerCount]

/-- The number that a pair of bytes stands for. -/
theorem pair_toNat (hi lo : Byte) : (hi ++ lo : Half).toNat = hi.toNat * 256 + lo.toNat := by
  refine (BitVec.toNat_append hi lo).trans ?_
  rw [← Nat.shiftLeft_add_eq_or_of_lt lo.isLt, Nat.shiftLeft_eq]

/-- In WAIT_HDR the bytes taken and the bytes still needed are those the class asks for (R20, R21). -/
theorem Fcb.Taken.need_add_length {fc : Byte} {bytes : List Byte} {S : Fcb} (h : S.Taken fc bytes)
    (hwait : S.phase = .waitHdr) : S.need.toNat + bytes.length = headerBytes (rom fc) := by
  obtain ⟨⟨-, -, hsum⟩, -, -, hcls⟩ := h.inv.of_waitHdr hwait
  rw [← h.taken, ← h.latched, ← hcls, hsum]

/-- The actions that return the classifier to IDLE (R17). -/
abbrev HostAction.ClearsClassifier (a : HostAction) : Prop :=
  a = .reset ∨ a.instr = some .clsClear ∨ a.instr = some .softReset

section
variable {a : HostAction} {S T : Fcb}

/-- `CLS_START` latches its code (R70). -/
theorem ActionEffect.eq_startClass {fc : Byte} (e : ActionEffect a S T) (ha : a.instr = some (.clsStart fc)) :
    T = S.startClass fc (rom fc) := by
  cases e.of_instr ha
  rfl

/-- `CLS_HDR` in WAIT_HDR takes its byte (R71). -/
theorem ActionEffect.eq_takeHeader {b : Byte} (e : ActionEffect a S T) (ha : a.instr = some (.clsHdr b))
    (hwait : S.phase = .waitHdr) : T = S.takeHeader b := by
  cases e.of_instr ha with
  | clsHdr => rfl
  | clsHdrOutOfPhase outOfPhase => exact absurd hwait outOfPhase

/-- `CLS_CLEAR` and both resets give the classifier its reset values (R72, R97). -/
theorem ActionEffect.sameClassifier_reset (e : ActionEffect a S T) (ha : a.ClearsClassifier) :
    T.sameClassifier Fcb.reset := by
  rcases ha with rfl | hi | hi
  · cases e
    exact Fcb.sameClassifier_equivalence.refl _
  · cases e.of_instr hi
    exact Fcb.clearClassifier_sameClassifier_reset S
  · cases e.of_instr hi
    exact Fcb.sameClassifier_equivalence.refl _

/-- Every other action keeps the classifier, and so does a header byte out of phase (R17 to R24). -/
theorem ActionEffect.classifier_kept (e : ActionEffect a S T) (hclear : ¬ a.ClearsClassifier)
    (hstart : ∀ fc, a.instr ≠ some (.clsStart fc))
    (hhdr : (∀ b, a.instr ≠ some (.clsHdr b)) ∨ S.phase ≠ .waitHdr) : T.sameClassifier S := by
  cases e with
  | command hd e =>
    cases e with
    | clsStart => exact absurd hd (hstart _)
    | clsHdr inPhase => exact absurd inPhase (hhdr.resolve_left fun h => h _ hd)
    | clsClear => exact absurd (.inr (.inl hd)) hclear
    | softReset => exact absurd (.inr (.inr hd)) hclear
    | _ => simp [Fcb.sameClassifier]
  | reset => exact absurd (.inl rfl) hclear
  | illegal | read => simp [Fcb.sameClassifier]

end

/-- The last header byte is the one awaited at need 1 (R20). -/
theorem need_sub_one_eq_zero_iff {n : BitVec 2} : n - 1#2 = 0#2 ↔ n = 1#2 := by
  revert n
  decide

/-- EXCEPTION is bit 7 of the function code (R56, R76). -/
theorem rom_eq_exception_iff (fc : Byte) : rom fc = .exception ↔ fc.getLsbD 7 = true := by
  unfold rom
  cases hbit : fc.getLsbD 7 with
  | true => simp
  | false =>
    simp only [Bool.false_eq_true, if_false]
    split_ifs <;> simp

end Sys2Proof.Machine
end

section
/-! SUPPORT. The statements about what the classifier's commands and the ROM entries write and leave (41_classifier.md,
10_state.md §4). -/

namespace Sys2Proof.Machine

/-- Settles O37: the effect in and out of phase, and the corner cases from the bytes taken. -/
theorem clsHdrTakesAByte : Obligations.ClsHdrTakesAByte := by
  unfold Obligations.ClsHdrTakesAByte
  refine ⟨fun _ => rfl, fun s b hphase => ⟨_, exec_clsHdr_outOfPhase hphase, rfl⟩, fun s b hphase => ?_,
    fun hi b hhi => performedAsIllegal_of_hi_ne_zero (by decide) hhi b, fun s b => ?_, fun s b => ?_, fun s b => ?_,
    fun S b inv count hphase => Fcb.accumulate_cnt_toNat (Fcb.inv_iff.1 inv).1 count hphase b⟩
  · refine ⟨_, exec_clsHdr_inPhase hphase, ?_⟩
    rw [State.onBlock_fcb, Fcb.takeHeader_eq, hphase]
    rfl
  · obtain ⟨t, ht, taken⟩ := exists_execAll_clsStart_clsHdr s (bytes := [b]) headerBytes_rom_03.ge
    obtain ⟨hdone, htotal, hhbc⟩ := taken.finished headerBytes_rom_03.symm
    rw [headerCount_singleton] at htotal
    exact ⟨t, ht, hdone, taken.counted.trans (headerCount_singleton b), BitVec.eq_of_toNat_eq hhbc, htotal⟩
  · obtain ⟨t, ht, taken⟩ := exists_execAll_clsStart_clsHdr s (bytes := [b]) (headerBytes_rom_18 ▸ one_le_two)
    obtain ⟨hwait, htotal⟩ := taken.waiting (headerBytes_rom_18 ▸ one_lt_two)
    have hneed : t.fcb.need = 1#2 :=
      BitVec.eq_of_toNat_eq (Nat.succ.inj ((taken.need_add_length hwait).trans headerBytes_rom_18))
    exact ⟨t, ht, hwait, hneed, BitVec.eq_of_toNat_eq taken.taken,
      taken.counted.trans (headerCount_singleton b), htotal⟩
  · obtain ⟨t, ht, taken⟩ :=
      exists_execAll_clsStart_clsHdr s (bytes := [0xFF#8, 0xFF#8]) headerBytes_rom_18.ge
    obtain ⟨hdone, htotal, -⟩ := taken.finished headerBytes_rom_18.symm
    have houtOfPhase : t.fcb.phase ≠ .waitHdr := by simp [hdone]
    exact ⟨t, _, ht, BitVec.eq_of_toNat_eq taken.counted, BitVec.eq_of_toNat_eq htotal,
      exec_clsHdr_outOfPhase houtOfPhase, rfl, rfl⟩

/-- Settles O43: each command and entry is one operation on the classifier, or raises ERR_SEQ. -/
theorem classifierCommandsFrame : Obligations.ClassifierCommandsFrame := by
  unfold Obligations.ClassifierCommandsFrame
  intro i s t hi h
  have hhost := execLeavesTheHostSide i s t h
  rcases hi with rfl | ⟨fc, rfl⟩ | ⟨b, rfl⟩ | ⟨fc, hfc⟩
  · cases (exec_clsClear s).symm.trans h
    exact ⟨by simp [Fcb.sameCrcUnit], by simp, hhost, .inl (by simp), by simp⟩
  · cases (exec_clsStart fc s).symm.trans h
    exact ⟨by simp [Fcb.sameCrcUnit], by simp, hhost, .inl (by simp), by simp⟩
  · by_cases hphase : s.fcb.phase = .waitHdr
    · cases (exec_clsHdr_inPhase hphase).symm.trans h
      exact ⟨by simp [Fcb.sameCrcUnit], by simp, hhost, .inl (by simp), by simp⟩
    · cases (exec_clsHdr_outOfPhase hphase).symm.trans h
      exact ⟨by simp [Fcb.sameCrcUnit], by simp, hhost, .inr ⟨⟨b, rfl⟩, hphase⟩, by simp⟩
  · obtain ⟨hw, he⟩ := encode_of_decodeRom hfc
    cases (exec_clsStart fc s).symm.trans ((exec_clsStart_eq_entry hw he s).trans h)
    refine ⟨by simp [Fcb.sameCrcUnit], by simp, hhost, .inl (by simp), ?_⟩
    rintro ⟨b, rfl⟩
    cases he

/-- Settles O44: an action latches a code, takes a byte, clears the classifier or keeps it. -/
theorem classifierResultFields : Obligations.ClassifierResultFields := by
  unfold Obligations.ClassifierResultFields
  intro s t a rest hp h
  have e := step_actionEffect hp h
  refine ⟨fun fc ha => ?_, fun b ha hwait => ?_, fun ha => ?_, fun hreset hclear hsoft hstart hhdr => ?_⟩
  · rw [e.eq_startClass ha, Fcb.startClass_eq]
    cases rom fc <;> simp [need0, frameLen]
  · rw [e.eq_takeHeader ha hwait]
    simp [need_sub_one_eq_zero_iff, hwait]
  · obtain ⟨hphase, hfc, hcls, -, -, -, -, hmalformed⟩ := e.sameClassifier_reset ha
    exact ⟨hphase, hfc, hcls, hmalformed⟩
  · obtain ⟨hphase, hfc, hcls, -, -, -, -, hmalformed⟩ :=
      e.classifier_kept (by simp [hreset, hclear, hsoft]) hstart hhdr
    exact ⟨hphase, hfc, hcls, hmalformed⟩

/-- Settles O45: an action latches a code, takes a byte, clears the classifier or keeps it; the invariants tie the
counters to the phase, and the counts are those of the bytes taken. -/
theorem headerCounters : Obligations.HeaderCounters := by
  unfold Obligations.HeaderCounters
  refine ⟨fun s t a rest hp h => ?_, fun S inv => ?_, fun s b => ?_, fun s first second => ?_⟩
  · have e := step_actionEffect hp h
    refine ⟨fun fc ha => ?_, fun b ha hwait => ?_, fun ha => ?_, fun hreset hclear hsoft hstart hhdr => ?_⟩
    · rw [e.eq_startClass ha]
      cases rom fc <;> simp [need0]
    · rw [e.eq_takeHeader ha hwait]
      exact ⟨Fcb.takeHeader_need b _, Fcb.takeHeader_hbc b _, Fcb.takeHeader_cnt b _⟩
    · obtain ⟨-, -, -, hneed, hhbc, hcnt, -⟩ := e.sameClassifier_reset ha
      exact ⟨hneed, hhbc, hcnt⟩
    · obtain ⟨-, -, -, hneed, hhbc, hcnt, -⟩ := e.classifier_kept (by simp [hreset, hclear, hsoft]) hstart hhdr
      exact ⟨hneed, hhbc, hcnt⟩
  · have classifier := (Fcb.inv_iff.1 inv).1
    cases hphase : S.phase with
    | idle =>
      obtain ⟨-, invIdle, -⟩ := inv
      obtain ⟨-, -, hneed, -⟩ := invIdle hphase
      simp [hneed]
    | waitHdr => rcases classifier.waiting hphase with ⟨-, hneed, -⟩ | ⟨-, hneed, -⟩ | ⟨-, hneed, -⟩ <;> simp [hneed]
    | done =>
      obtain ⟨hneed, -, -, hhbc, -⟩ := classifier.of_done hphase
      refine ⟨by simp [hneed], by simp [hneed], fun _ => BitVec.eq_of_toNat_eq (hhbc.trans ?_)⟩
      cases S.cls <;> rfl
  · obtain ⟨t, ht, taken⟩ := exists_execAll_clsStart_clsHdr s (bytes := [b]) headerBytes_rom_03.ge
    refine ⟨t, ht, BitVec.eq_of_toNat_eq ?_⟩
    rw [taken.counted, headerCount_singleton, BitVec.toNat_setWidth_of_le (by decide)]
  · obtain ⟨t, ht, taken⟩ := exists_execAll_clsStart_clsHdr s (bytes := [first, second]) headerBytes_rom_18.ge
    refine ⟨t, ht, BitVec.eq_of_toNat_eq ?_⟩
    rw [taken.counted, headerCount_pair, pair_toNat]

/-- Settles O49: the class that `CLS_START` latches is read at CLS_INFO. -/
theorem slaveExceptionIsBit7 : Obligations.SlaveExceptionIsBit7 := by
  unfold Obligations.SlaveExceptionIsBit7
  intro s fc
  refine ⟨rom_eq_exception_iff fc, _, exec_clsStart fc s, ?_⟩
  rw [regRead_info, clsInfoWord_class, State.onBlock_fcb, Fcb.startClass_cls, ← rom_eq_exception_iff]
  exact ⟨fun h => FrameClass.code_inj (d := .exception) h, fun h => by rw [h]; rfl⟩

/-- Settles O39: each entry's own row, whose class asks for header bytes. -/
theorem romEntriesCounted : Obligations.RomEntriesCounted := by
  unfold Obligations.RomEntriesCounted
  intro s
  refine ⟨fun p hp => ?_, rfl⟩
  fin_cases hp <;> rfl

/-- Settles O40: each entry's own row, whose class has a fixed length. -/
theorem romEntriesFixed : Obligations.RomEntriesFixed := by
  unfold Obligations.RomEntriesFixed
  intro s
  refine ⟨fun p hp => ?_, fun p hp => ?_, fun fc _ => rfl⟩ <;> fin_cases hp <;> rfl

/-- Settles O41: each entry's own row, of class UNKNOWN. -/
theorem romEntriesUnknown : Obligations.RomEntriesUnknown := by
  unfold Obligations.RomEntriesUnknown
  intro s
  refine ⟨fun p hp => ?_, ?_⟩
  · fin_cases hp <;> rfl
  · rintro fc i (⟨rfl, -⟩ | ⟨rfl, -⟩ | ⟨rfl, -⟩ | ⟨rfl, -⟩) <;> rfl

end Sys2Proof.Machine
end

section
/-! SUPPORT. The statements about the control commands, repeated commands and the reported conditions (R80, R42, R83, R87). -/

namespace Sys2Proof.Machine

/-- `SOFT_RESET` (R80). -/
theorem exec_softReset (s : State) : exec .softReset s = .next { s with fcb := State.reset.fcb } := rfl

/-- Settles O18: what `SOFT_RESET` leaves of the block does not depend on the block. -/
theorem softReset : Obligations.SoftReset := by
  unfold Obligations.SoftReset
  refine ⟨rfl, exec_softReset, fun s t h => ?_, fun imm => performedAsIllegal_of_operand_ne_zero (by decide)⟩
  cases (exec_softReset s).symm.trans h
  rfl

/-- The two variable-length classes ask for a header byte (R68). -/
theorem one_le_headerBytes {c : FrameClass} (h : c = .count8 ∨ c = .count16) : 1 ≤ headerBytes c := by
  rcases h with rfl | rfl <;> decide

/-- A program of one instruction is that instruction. -/
theorem execAll_singleton (i : Instr) (s : State) : execAll [i] s = exec i s := by
  obtain ⟨f, hf⟩ := exec_onBlock i
  rw [execAll_cons (hf s), hf s]
  rfl

/-- Settles O56: the five write constants; the others are shown to differ by `crc`, phase, count and match. -/
theorem idempotentCommands : Obligations.IdempotentCommands := by
  unfold Obligations.IdempotentCommands
  have second (s : State) (b : Byte) : ∃ t u, execAll [.clsStart 0x18#8, .clsHdr b] s = .next t ∧
      exec (.clsHdr b) t = .next u ∧ u.fcb.phase ≠ t.fcb.phase := by
    obtain ⟨t, ht, taken⟩ := exists_execAll_clsStart_clsHdr s (bytes := [b]) (headerBytes_rom_18 ▸ one_le_two)
    obtain ⟨hwait, -⟩ := taken.waiting (headerBytes_rom_18 ▸ one_lt_two)
    obtain ⟨hdone, -⟩ := (taken.takeHeader hwait b).finished headerBytes_rom_18.symm
    refine ⟨t, _, ht, exec_clsHdr_inPhase hwait, ?_⟩
    rw [State.onBlock_fcb, hdone, hwait]
    decide
  refine ⟨fun i hi s => ?_, ⟨State.reset, _, 0x01#8, exec_crcByte _ _, ?_⟩, ?_, second, fun s fc b b' hrom hb => ?_,
    ⟨State.reset, _, _, 0xFF#8, 0xFF#8, 0x00#8, 0x00#8, exec_crcCheck _ _ _, exec_crcCheck _ _ _, by decide⟩⟩
  · fin_cases hi <;> exact ⟨_, rfl, rfl⟩
  · rw [exec_crcByte, ne_eq, Host.Outcome.next.injEq]
    intro h
    have hcrc := congrArg (fun s => s.fcb.crc) h
    revert hcrc
    decide +kernel
  · obtain ⟨t, u, ht, hu, hne⟩ := second State.reset 0x00#8
    rw [execAll_cons (exec_clsStart _ _), execAll_singleton] at ht
    refine ⟨_, t, 0x00#8, ht, fun h => hne ?_⟩
    cases hu.symm.trans h
    rfl
  · have hlen := one_le_headerBytes hrom
    obtain ⟨t, ht, taken⟩ := exists_execAll_clsStart_clsHdr s (bytes := [b]) hlen
    obtain ⟨u, hu, taken'⟩ := exists_execAll_clsStart_clsHdr t (bytes := [b']) hlen
    refine ⟨t, u, ht, hu, fun hcnt => hb (BitVec.eq_of_toNat_eq ?_)⟩
    rw [← headerCount_singleton b, ← headerCount_singleton b', ← taken.counted, ← taken'.counted, hcnt]

/-- A header byte out of phase, by its decoding (R83). -/
theorem raisedBy_sequence_iff {w : CmdWord} {S : Fcb} :
    Condition.sequence.raisedBy w S = true ↔ decode w = some (.clsHdr w.lo) ∧ S.phase ≠ .waitHdr := by
  obtain ⟨-, -, -, -, -, hdecode, -⟩ := commandEncodings w
  simp [Condition.raisedBy, hdecode, CmdWord.lo]

/-- A code of class UNKNOWN, by its decoding (R83). -/
theorem raisedBy_malformedFrame_iff {w : CmdWord} {S : Fcb} :
    Condition.malformedFrame.raisedBy w S = true ↔ decode w = some (.clsStart w.lo) ∧ rom w.lo = .unknown := by
  obtain ⟨-, -, -, -, hdecode, -⟩ := commandEncodings w
  simp [Condition.raisedBy, hdecode, CmdWord.lo]

/-- A pair that is not the CRC, by its decoding (R83). -/
theorem raisedBy_crcMismatch_iff {w : CmdWord} {S : Fcb} :
    Condition.crcMismatch.raisedBy w S = true ↔ decode w = some (.crcCheck w.lo w.hi) ∧ S.crc ≠ w.imm16 := by
  obtain ⟨-, -, -, hdecode, -⟩ := commandEncodings w
  simp [Condition.raisedBy, hdecode, ← w.imm16_eq_hi_append_lo, CmdWord.imm16]

/-- An illegal word, by its decoding (R83). -/
theorem raisedBy_illegalWord_iff {w : CmdWord} {S : Fcb} :
    Condition.illegalWord.raisedBy w S = true ↔ decode w = none := by
  simp [Condition.raisedBy]

/-- The decoding of a word tells which condition it can raise (R83, R87). -/
def conditionOf : Option Instr → Option Condition
  | none => some .illegalWord
  | some (.clsHdr _) => some .sequence
  | some (.clsStart _) => some .malformedFrame
  | some (.crcCheck _ _) => some .crcMismatch
  | some _ => none

/-- A raised condition is the one its word's decoding can raise. -/
theorem conditionOf_of_raisedBy {w : CmdWord} {S : Fcb} {c : Condition} (h : c.raisedBy w S = true) :
    conditionOf (decode w) = some c := by
  cases c with
  | illegalWord => rw [raisedBy_illegalWord_iff.1 h, conditionOf]
  | sequence => rw [(raisedBy_sequence_iff.1 h).1, conditionOf]
  | malformedFrame => rw [(raisedBy_malformedFrame_iff.1 h).1, conditionOf]
  | crcMismatch => rw [(raisedBy_crcMismatch_iff.1 h).1, conditionOf]

/-- Settles O55: a word decodes in one way, which can raise one condition, and its effect shows that condition. -/
theorem atMostOneCondition : Obligations.AtMostOneCondition := by
  unfold Obligations.AtMostOneCondition
  refine ⟨fun w S c d hc hd => ?_, fun s w rest c hp hc => ?_, fun S hi b hhi => ?_⟩
  · exact Option.some.inj ((conditionOf_of_raisedBy hc).symm.trans (conditionOf_of_raisedBy hd))
  · cases c with
    | illegalWord =>
      have hd := raisedBy_illegalWord_iff.1 hc
      exact ⟨_, step_illegal hp hd, by simp [Condition.reported, statusWord_errIll], by simp, by simp⟩
    | sequence =>
      obtain ⟨hd, hphase⟩ := raisedBy_sequence_iff.1 hc
      exact ⟨_, (step_legal hp hd).trans (exec_clsHdr_outOfPhase hphase),
        by simp [Condition.reported, statusWord_errSeq], by simp, by simp⟩
    | malformedFrame =>
      obtain ⟨hd, hrom⟩ := raisedBy_malformedFrame_iff.1 hc
      refine ⟨_, (step_legal hp hd).trans (exec_clsStart _ _), ?_⟩
      rw [hrom]
      exact ⟨statusWord_malformed _, fun _ => ⟨rfl, rfl⟩, by simp⟩
    | crcMismatch =>
      obtain ⟨hd, hcrc⟩ := raisedBy_crcMismatch_iff.1 hc
      refine ⟨_, (step_legal hp hd).trans (exec_crcCheck _ _ _), ?_⟩
      rw [← w.imm16_eq_hi_append_lo, Condition.reported, regRead_status, statusWord_checked, statusWord_matched]
      simp [crcMatches_eq_decide, hcrc]
  · rw [raisedBy_illegalWord_iff]
    change decode (CmdWord.pack 0x11#8 hi b) = none
    simp [decode_pack, hhi]

end Sys2Proof.Machine
end

section
/-! SUPPORT. The assembly text of a command (R57): how a line is cut into words, and that a listed operand is read back. -/

namespace Sys2Proof.Machine

/-- A character that neither separates words nor starts a comment (R57). -/
def isWordChar (c : Char) : Bool := c != ';' && c != ' ' && c != '\t' && c != ','

/-- The characters of a word are collected (R57). -/
theorem tokens_word_append {w : List Char} (hw : w.all isWordChar = true) (acc rest : List Char) :
    tokens acc (w ++ rest) = tokens (w.reverse ++ acc) rest := by
  induction w generalizing acc with
  | nil => rfl
  | cons c w ih =>
    obtain ⟨hc, hw⟩ : isWordChar c = true ∧ w.all isWordChar = true := by simpa using hw
    simp only [isWordChar, Bool.and_eq_true, bne_iff_ne, ne_eq, and_assoc] at hc
    obtain ⟨hcomment, hblank, htab, hcomma⟩ := hc
    simp [tokens, hcomment, hblank, htab, hcomma, ih hw]

section
variable {w : List Char} (hw : w.all isWordChar = true) (hne : w ≠ [])
include hw hne

/-- A word that ends the line. -/
theorem tokens_word : tokens [] w = [.word w] := by
  have h := tokens_word_append hw [] []
  rw [List.append_nil, List.append_nil] at h
  rw [h]
  simp [tokens, Token.flush, hne]

/-- A word before a blank (R57). -/
theorem tokens_word_blank (rest : List Char) : tokens [] (w ++ ' ' :: rest) = .word w :: tokens [] rest := by
  rw [tokens_word_append hw]
  simp [tokens, Token.flush, hne]

/-- A word before a comma (R57). -/
theorem tokens_word_comma (rest : List Char) :
    tokens [] (w ++ ',' :: rest) = .word w :: .comma :: tokens [] rest := by
  rw [tokens_word_append hw]
  simp [tokens, Token.flush, hne]

end

/-- A blank before a word is skipped (R57). -/
theorem tokens_blank (rest : List Char) : tokens [] (' ' :: rest) = tokens [] rest := by
  simp [tokens, Token.flush]

/-- A listed operand is one word, by evaluating all 256 bytes. -/
theorem operandText_isWord (b : Byte) : (operandText b).all isWordChar = true := by
  revert b
  decide +kernel

/-- A listed operand is read back (R57), by evaluating all 256 bytes. -/
theorem operand_operandText (b : Byte) : operand (operandText b) = some b := by
  revert b
  decide +kernel

/-- A mnemonic is one word. -/
theorem Mnemonic.text_isWord (m : Mnemonic) : m.text.all isWordChar = true ∧ m.text ≠ [] := by
  cases m <;> decide

/-- A mnemonic is found by its spelling: no two are spelt alike (R51, R58). -/
theorem Mnemonic.find_text (m : Mnemonic) : Mnemonic.all.find? (fun k => k.text == m.text) = some m := by
  cases m <;> decide

/-- A line of a mnemonic alone (R57). -/
theorem assembleLine_mnemonic (m : Mnemonic) : assembleLine m.text = expand m [] := by
  obtain ⟨hm, hne⟩ := m.text_isWord
  simp [assembleLine, tokens_word hm hne, m.find_text, operands]

/-- A line of a mnemonic and one listed operand (R57). -/
theorem assembleLine_operand (m : Mnemonic) (b : Byte) :
    assembleLine (m.text ++ ' ' :: operandText b) = expand m [b] := by
  obtain ⟨hm, hne⟩ := m.text_isWord
  have hb : operandText b ≠ [] := by simp [operandText]
  simp [assembleLine, tokens_word_blank hm hne, tokens_word (operandText_isWord b) hb, m.find_text, operands,
    operand_operandText]

/-- A line of a mnemonic and two listed operands (R57). -/
theorem assembleLine_two_operands (m : Mnemonic) (b b' : Byte) :
    assembleLine (m.text ++ ' ' :: operandText b ++ ',' :: ' ' :: operandText b') = expand m [b, b'] := by
  obtain ⟨hm, hne⟩ := m.text_isWord
  have hb (b : Byte) : operandText b ≠ [] := by simp [operandText]
  rw [List.append_assoc, List.cons_append]
  simp [assembleLine, tokens_word_blank hm hne, tokens_word_comma (operandText_isWord b) (hb b), tokens_blank,
    tokens_word (operandText_isWord b') (hb b'), m.find_text, operands, operand_operandText]

/-- Settles O59: a command's text is its mnemonic and listed operands; only commands have a text and a command word. -/
theorem assemblingTheListedText : Obligations.AssemblingTheListedText := by
  unfold Obligations.AssemblingTheListedText
  refine ⟨fun i text h => ?_, fun i => ?_, by decide⟩
  · cases i with
    | nop | crcInit | clsClear | errClear | softReset =>
      cases h
      exact assembleLine_mnemonic _
    | crcByte | clsStart | clsHdr =>
      cases h
      exact assembleLine_operand _ _
    | crcCheck =>
      cases h
      exact assembleLine_two_operands _ _ _
    | _ => cases h
  · cases i <;> simp [commandText, encode]

end Sys2Proof.Machine
end
